-- ==== Sys2Proof/Word.lean ====
section
/-! DEFINITION. The widths of the block's registers, ports and words (00_scope R8, 30_encoding R91, R92). Every value is
unsigned (R10), and bit 0 is the least significant bit (R11). -/

namespace Sys2Proof

/-- A sample, a duty, a commanded thrust: 8 bits (R8, R63, R64). -/
abbrev Byte := BitVec 8

/-- A filter sum FA[i].SUM: 18 bits (R8, R21). -/
abbrev SumWord := BitVec 18

/-- A duration in ticks: 18 bits (R8, R25). -/
abbrev DurWord := BitVec 18

/-- The thrust level LEVEL: 16 bits (R8, R27). -/
abbrev LevelWord := BitVec 16

/-- A debounce timer: 9 bits (R8, R30). -/
abbrev TimerWord := BitVec 9

/-- The numeric code of the STATE register: 3 bits (R8, R32). -/
abbrev StateCode := BitVec 3

/-- The tick counter TICKS: 32 bits (R8, R34). -/
abbrev TickCount := BitVec 32

/-- The input word, format I: 17 bits (R90, R92). -/
abbrev InputBits := BitVec 17

/-- The tick word, format T: 20 bits (R90, R91). -/
abbrev TickBits := BitVec 20

end Sys2Proof
end

