-- ==== Sys2Proof/Machine/Constants.lean ====
section
/-! DEFINITION. The block's hardwired constants, each a named parameter with the spec's default (00_scope R7, 10_state R35,
decision D25; log entry 7). -/

namespace Sys2Proof.Machine

/-- SHIFT: the filter shift (R7). -/
def Constants.shift : Nat := 10

/-- DELAY: the debounce delay in ticks (R7). -/
def Constants.delay : Nat := 500

/-- DUR_BASE: the duration in ticks at time-dial value 0 (R7). -/
def Constants.durBase : Nat := 15000

/-- DUR_SHIFT: the duration gain as a shift (R7). -/
def Constants.durShift : Nat := 9

/-- RAMP_TICKS: the divisor of the ramp step formula (R7). -/
def Constants.rampTicks : Nat := 2000

/-- STEP: `0xFFFF / RAMP_TICKS` in truncating division (R7, 42_ramp_down R152). -/
def Constants.rampStep : Nat := 0xFFFF / Constants.rampTicks

/-- The two orders of RAMP_ORDER: whether the ramp compares before it subtracts or after (42_ramp_down R153). -/
inductive RampOrder where
  | testFirst
  | subtractFirst
deriving DecidableEq, Repr

/-- RAMP_ORDER: test first, the spec's decision D10 (R151, R153; log entry 8). -/
def Constants.rampOrder : RampOrder := .testFirst

/-- NCHAN: the number of filtered channels (R7). -/
def Constants.nchan : Nat := 2

/-- NSTATE: the number of system states (R7). -/
def Constants.nstate : Nat := 5

/-- TICK_PERIOD: the nominal period of the tick source in milliseconds; no rule depends on it (R7, 70_reset_and_hazards
R263). -/
def Constants.tickPeriodMs : Nat := 1

/-- The nominal duration in milliseconds of a number of ticks; no rule depends on it (41_run_duration R143, R263). -/
def Constants.nominalMs (ticks : Nat) : Nat := ticks * Constants.tickPeriodMs

end Sys2Proof.Machine
end

