-- ==== Sys2Proof/Syntax.lean ====
section
/-! DEFINITION. The names of the block: its five states, its two analog channels, the input word, and the instruction type
with one constructor for every row of spec/opcode_table.json (30_encoding R94, R98). -/

namespace Sys2Proof

/-- The five variants of SystemState (10_state R32). Their 3-bit codes are `stateCode` in Decode.lean. -/
inductive SystemState where
  | readyBtnWait
  | ready
  | thrustBtnWait
  | thrust
  | thrustDown
deriving DecidableEq, Repr

/-- The two analog channels, and the two filter accumulators with the same index (10_state R21, 20_memory R68):
channel 0 is the throttle dial, channel 1 the time dial. -/
inductive Channel where
  | throttle
  | time
deriving DecidableEq, Repr

/-- What the environment supplies at one tick besides RST: BTN, S_THR and S_TIME (20_memory R62, R63; 30_encoding R92). -/
structure InputWord where
  btn   : Bool
  sThr  : Byte
  sTime : Byte
deriving DecidableEq, Repr

/-- One TICK pulse with the level of every input port at it (20_memory R60, R61, R67). -/
structure TickInput where
  rst  : Bool
  word : InputWord
deriving DecidableEq, Repr

/-- A tick operation with the bits of its tick word that do not select it (30_encoding R91, R94). `btn`, `thr` and `tim` are
the B, THR and TIM fields; an operation that ignores a field still carries it, so that no bit of the word is lost (R99). -/
inductive Instr where
  /-- RBW.TICK (44_state_machine R182); B is ignored. -/
  | rbwTick (btn : Bool) (thr tim : Byte)
  /-- RDY.FEED (R184). -/
  | rdyFeed (thr tim : Byte)
  /-- RDY.ARM (R186); THR and TIM are ignored. -/
  | rdyArm (thr tim : Byte)
  /-- TBW.TICK (R188); B, THR and TIM are ignored. -/
  | tbwTick (btn : Bool) (thr tim : Byte)
  /-- THR.RUN (R192); THR and TIM are ignored. -/
  | thrRun (thr tim : Byte)
  /-- THR.STOP (R194); THR and TIM are ignored. -/
  | thrStop (thr tim : Byte)
  /-- TDN.RAMP (R196); THR and TIM are ignored. -/
  | tdnRamp (thr tim : Byte)
  /-- TDN.STOP (R198); THR and TIM are ignored. -/
  | tdnStop (thr tim : Byte)
  /-- RESERVED.ST5: a tick word with ST = 5 (30_encoding R98). -/
  | reservedSt5 (btn : Bool) (thr tim : Byte)
  /-- RESERVED.ST6_7: a tick word with ST = 6 or 7; `low` is bit 17, the low bit of ST (R98). -/
  | reservedSt67 (low : Bool) (btn : Bool) (thr tim : Byte)
deriving DecidableEq, Repr

end Sys2Proof
end

