-- ==== Sys2Proof/Config.lean ====
section
/-! DEFINITION. The open parameters of 92_eei_decisions.md that are no constants of the block's operations: the start value of
the filter sums and the waveform of the actuator. The constants the operations read stand in Machine/Constants.lean. -/

namespace Sys2Proof

/-- SUM_RESET[i], the start value of a filter sum: 0 by the spec's decision D5 (10_state R23, R38).
Read by reset only. Log entry 6. -/
def Config.sumReset (_ : Channel) : SumWord := 0

/-- PWM_PERIOD, the actuator's carrier period: open, read by no rule (43_output_stage R173, decision D18).
Log entry 14. -/
opaque Config.pwmPeriod : Nat

/-- PWM_FULL_SCALE, 255 or 256: open, read by no rule (R173, D18). Log entry 14. -/
opaque Config.pwmFullScale : Nat

/-- PWM_POLARITY: open, read by no rule (R173, D18). Log entry 14. -/
opaque Config.pwmPolarity : Bool

end Sys2Proof
end

