-- ==== Sys2Proof/WellFormed.lean ====
section
/-! DEFINITION. Which terms of `Instr` are tick operations. The fields have exactly the widths of the tick word, so the one
thing a term can get wrong is to be a reserved word (30_encoding R95, R98). -/

namespace Sys2Proof

/-- The term is one of the eight tick operations of 30_encoding R94; the two reserved rows are none (R98). -/
def Instr.wellFormed : Instr → Bool
  | .rbwTick _ _ _ => true
  | .rdyFeed _ _ => true
  | .rdyArm _ _ => true
  | .tbwTick _ _ _ => true
  | .thrRun _ _ => true
  | .thrStop _ _ => true
  | .tdnRamp _ _ => true
  | .tdnStop _ _ => true
  | .reservedSt5 _ _ _ => false
  | .reservedSt67 _ _ _ _ => false

/-- `Instr.wellFormed` as a proposition. -/
abbrev Instr.WellFormed (i : Instr) : Prop := i.wellFormed = true

end Sys2Proof
end

