-- ==== Sys2Proof/Decode.lean ====
section
/-! DEFINITION. The encodings of 30_encoding.md: the state codes and the opcode map (R94), the input word and the tick word
(R91, R92), decoding (R95, R98) and encoding. The tick word is a number of 20 bits; it is stored nowhere (R90), so no byte
order enters. -/

namespace Sys2Proof

/-- The numeric codes of the five states (30_encoding R94, 10_state R32). -/
def stateCode : SystemState → StateCode
  | .readyBtnWait => 0
  | .ready => 1
  | .thrustBtnWait => 2
  | .thrust => 3
  | .thrustDown => 4

/-- The channel indices (20_memory R68). -/
def channelIndex : Channel → Nat
  | .throttle => 0
  | .time => 1

/-- Format I (30_encoding R92): bit 16 is BTN, bits 15..8 are S_THR, bits 7..0 are S_TIME. -/
def inputBits (w : InputWord) : InputBits := BitVec.ofBool w.btn ++ w.sThr ++ w.sTime

/-- The input word a format I number stands for (R92). -/
def inputWordOf (b : InputBits) : InputWord :=
  { btn := b.getLsbD 16, sThr := b.extractLsb' 8 8, sTime := b.extractLsb' 0 8 }

/-- Format T (30_encoding R91): bits 19..17 are ST, then the input word. -/
def tickWord (st : StateCode) (w : InputWord) : TickBits := st ++ inputBits w

/-- The tick operation a tick word selects (30_encoding R94, R95), with the two reserved arms of R98. -/
def decode (t : TickBits) : Instr :=
  let st : StateCode := t.extractLsb' 17 3
  let btn : Bool := t.getLsbD 16
  let thr : Byte := t.extractLsb' 8 8
  let tim : Byte := t.extractLsb' 0 8
  if st = 0 then .rbwTick btn thr tim
  else if st = 1 then (if btn then .rdyArm thr tim else .rdyFeed thr tim)
  else if st = 2 then .tbwTick btn thr tim
  else if st = 3 then (if btn then .thrStop thr tim else .thrRun thr tim)
  else if st = 4 then (if btn then .tdnStop thr tim else .tdnRamp thr tim)
  else if st = 5 then .reservedSt5 btn thr tim
  else .reservedSt67 (t.getLsbD 17) btn thr tim

/-- The tick word of a tick operation (30_encoding R91, R94, R98). -/
def encode : Instr → TickBits
  | .rbwTick btn thr tim => tickWord 0 ⟨btn, thr, tim⟩
  | .rdyFeed thr tim => tickWord 1 ⟨false, thr, tim⟩
  | .rdyArm thr tim => tickWord 1 ⟨true, thr, tim⟩
  | .tbwTick btn thr tim => tickWord 2 ⟨btn, thr, tim⟩
  | .thrRun thr tim => tickWord 3 ⟨false, thr, tim⟩
  | .thrStop thr tim => tickWord 3 ⟨true, thr, tim⟩
  | .tdnRamp thr tim => tickWord 4 ⟨false, thr, tim⟩
  | .tdnStop thr tim => tickWord 4 ⟨true, thr, tim⟩
  | .reservedSt5 btn thr tim => tickWord 5 ⟨btn, thr, tim⟩
  | .reservedSt67 low btn thr tim => tickWord (3#2 ++ BitVec.ofBool low) ⟨btn, thr, tim⟩

/-- The mnemonic of an instruction, as spec/opcode_table.json spells it. -/
def mnemonic : Instr → String
  | .rbwTick _ _ _ => "RBW.TICK"
  | .rdyFeed _ _ => "RDY.FEED"
  | .rdyArm _ _ => "RDY.ARM"
  | .tbwTick _ _ _ => "TBW.TICK"
  | .thrRun _ _ => "THR.RUN"
  | .thrStop _ _ => "THR.STOP"
  | .tdnRamp _ _ => "TDN.RAMP"
  | .tdnStop _ _ => "TDN.STOP"
  | .reservedSt5 _ _ _ => "RESERVED.ST5"
  | .reservedSt67 _ _ _ _ => "RESERVED.ST6_7"

/-- One row of the opcode map: a tick word `t` selects the row when `t &&& mask = pattern` (30_encoding R94). -/
structure OpcodeRow where
  mnemonic : String
  pattern  : TickBits
  mask     : TickBits
deriving DecidableEq, Repr

/-- The opcode map of 30_encoding R94 with the two reserved rows of R98, as spec/opcode_table.json lists them. -/
def opcodeMap : List OpcodeRow :=
  [ ⟨"RBW.TICK", 0x00000, 0xE0000⟩,
    ⟨"RDY.FEED", 0x20000, 0xF0000⟩,
    ⟨"RDY.ARM", 0x30000, 0xF0000⟩,
    ⟨"TBW.TICK", 0x40000, 0xE0000⟩,
    ⟨"THR.RUN", 0x60000, 0xF0000⟩,
    ⟨"THR.STOP", 0x70000, 0xF0000⟩,
    ⟨"TDN.RAMP", 0x80000, 0xF0000⟩,
    ⟨"TDN.STOP", 0x90000, 0xF0000⟩,
    ⟨"RESERVED.ST5", 0xA0000, 0xE0000⟩,
    ⟨"RESERVED.ST6_7", 0xC0000, 0xC0000⟩ ]

/-- The rows of the opcode map that a tick word selects (30_encoding R94). -/
def selectedRows (t : TickBits) : List OpcodeRow := opcodeMap.filter (fun r => t &&& r.mask == r.pattern)

/-- Why a number is no tick word. -/
inductive DecodeError where
  /-- The number has a bit above bit 19, and a tick word has 20 bits (30_encoding R90). Log entry 11. -/
  | tooWide
deriving DecidableEq, Repr

/-- Decoding of any number: the tick operation, or the reason it is no tick word. -/
def decodeNumber (w : Nat) : Except DecodeError Instr :=
  if w < 2 ^ 20 then .ok (decode (BitVec.ofNat 20 w)) else .error .tooWide

/-- The decoder on a row of spec/opcode_table.json: `nbits` bits of value `w`, every bit above them 0. -/
def decodeTableWord (nbits w : Nat) : Option Instr :=
  match decodeNumber (w % 2 ^ nbits) with
  | .ok i => some i
  | .error _ => none

end Sys2Proof
end

