-- ==== Sys2Proof/Machine/State.lean ====
section
/-! DEFINITION. The state of the block (10_state R20), the state after reset (R38), the local record of one tick, and the
reasons a step can stop. -/

namespace Sys2Proof.Machine

/-- The complete state: the eleven registers of 10_state R20, and the input words the environment has still to present. -/
structure State where
  /-- FA[0].SUM, the running sum of the throttle filter (R21-R23). -/
  fa0    : SumWord
  /-- FA[1].SUM, the running sum of the time-dial filter (R21-R23). -/
  fa1    : SumWord
  /-- THRUST, the commanded thrust level of the run (R24). -/
  thrust : Byte
  /-- DUR, the remaining duration of the run in ticks (R25). -/
  dur    : DurWord
  /-- LEVEL, the 16-bit thrust level (R27). -/
  level  : LevelWord
  /-- DUTY, the duty last commanded to the actuator (R29). -/
  duty   : Byte
  /-- DBT0, the debounce timer of READY_BTN_WAIT (R30). -/
  dbt0   : TimerWord
  /-- DBT1, the debounce timer of THRUST_BTN_WAIT (R30). -/
  dbt1   : TimerWord
  /-- STATE, the code of the state the next tick is evaluated in (R32). -/
  state  : StateCode
  /-- CHG, the state-change flag (R33). -/
  chg    : Bool
  /-- TICKS, the tick counter (R34). -/
  ticks  : TickCount
  /-- The TICK pulses still to come, oldest first, each with the port levels at it (20_memory R60, R61, R77). The model's own
  field, not a register: DESIGN CHOICE, log entry 1. -/
  inputs : List TickInput
deriving DecidableEq, Repr

/-- No step of this machine faults: the block raises no exception of any kind (60_exceptions R220), so the type is empty.
Log entry 19; safe. -/
inductive Fault where
deriving DecidableEq, Repr

/-- The reasons for which an instruction has no next state. -/
inductive Refusal where
  /-- An instruction that has no meaning yet; raised by no arm of `exec`, since every row has its meaning. Safe. -/
  | notModelled (mnemonic : String)
  /-- A tick word whose ST field is 5, 6 or 7, to which the spec gives no operation (30_encoding R98); raised by the two
  reserved rows, with the ST field. Safe: log entry 4. -/
  | reservedState (st : StateCode)
deriving DecidableEq, Repr

/-- The machine right after reset (10_state R38, 70_reset_and_hazards R250), with no TICK pulse yet. -/
def State.reset : State :=
  { fa0 := Config.sumReset .throttle
    fa1 := Config.sumReset .time
    thrust := 0
    dur := 0
    level := 0
    duty := 0
    dbt0 := 0
    dbt1 := 0
    state := stateCode .readyBtnWait
    chg := true
    ticks := 0
    inputs := [] }

/-- One tick in progress: the registers, and the local variable `next`, the value STATE takes at the end of the tick
(00_scope R13). -/
structure Tick where
  regs : State
  next : StateCode
deriving DecidableEq, Repr

end Sys2Proof.Machine
end

