-- ==== Sys2Proof/Machine/Flags.lean ====
section
/-! DEFINITION. The one flag, CHG (10_state R33). -/

namespace Sys2Proof.Machine

/-- The value CHG takes at the end of a tick: whether `next` differs from STATE (10_state R33, 20_memory R60). -/
def chgFlag (old next : StateCode) : Bool := next != old

end Sys2Proof.Machine
end

