-- ==== Sys2Proof/Machine/Operands.lean ====
section
/-! DEFINITION. The operand forms: the two channels of the input word, and the two filter sums (20_memory R66, R68;
00_scope R14). -/

namespace Sys2Proof.Machine

/-- `Sample(ch)`: the sample of a channel in this tick's input word (20_memory R66). -/
def sample (w : InputWord) : Channel → Byte
  | .throttle => w.sThr
  | .time => w.sTime

/-- The read of `FA[i].SUM` (00_scope R14, 10_state R21). -/
def readSum (s : State) : Channel → SumWord
  | .throttle => s.fa0
  | .time => s.fa1

/-- The write `FA[i].SUM <- v` (00_scope R14, 10_state R21). -/
def writeSum (c : Channel) (v : SumWord) (s : State) : State :=
  match c with
  | .throttle => { s with fa0 := v }
  | .time => { s with fa1 := v }

end Sys2Proof.Machine
end

