-- ==== Sys2Proof/Machine/Ops.lean ====
section
/-! DEFINITION. The primitives of the block (40_filter, 41_run_duration, 42_ramp_down, 43_output_stage), the shared action
on the abnormal events (60_exceptions R224), the frame of a tick (20_memory R60) and RESET (70_reset_and_hazards R250). -/

namespace Sys2Proof.Machine

/-- The exact integer result of a feed, `SUM + s - (SUM >> SHIFT)` (40_filter R121). The subtraction never goes below zero,
since `SUM >> SHIFT` is at most SUM. -/
def filterNext (sum s : Nat) : Nat := sum + s - sum >>> Constants.shift

/-- `FEED(i, s)` (40_filter R121). -/
def feed (c : Channel) (smp : Byte) (s : State) : State :=
  writeSum c (BitVec.ofNat 18 (filterNext (readSum s c).toNat smp.toNat)) s

/-- The output of a filter with running sum `sum`: `SUM >> SHIFT` (40_filter R122). -/
def filterOut (sum : SumWord) : Byte := BitVec.ofNat 8 (sum.toNat >>> Constants.shift)

/-- `GET(i)` (40_filter R122). -/
def getFilter (c : Channel) (s : State) : Byte := filterOut (readSum s c)

/-- `FEEDBOTH()`: the throttle channel, then the time channel (40_filter R123, 20_memory R66). -/
def feedBoth (w : InputWord) (s : State) : State :=
  feed .time (sample w .time) (feed .throttle (sample w .throttle) s)

/-- `RUNDUR(t)`: `DUR_BASE + (t << DUR_SHIFT)` (41_run_duration R141). -/
def runDur (t : Byte) : DurWord := BitVec.ofNat 18 (Constants.durBase + t.toNat <<< Constants.durShift)

/-- `satdec(a)`: one less, but 0 from 0 (00_scope R12). -/
def satdec (a : DurWord) : DurWord := if a = 0 then 0 else a - 1

/-- `SETDUTY(d)` (43_output_stage R167). -/
def setDuty (d : Byte) (s : State) : State := { s with duty := d }

/-- `d`, the top byte of a level: `LEVEL >> 8` (10_state R27). -/
def levelDuty (l : LevelWord) : Byte := BitVec.ofNat 8 (l.toNat >>> 8)

/-- The level of a thrust, `THRUST << 8` (43_output_stage R169). -/
def thrustLevel (d : Byte) : LevelWord := BitVec.ofNat 16 (d.toNat <<< 8)

/-- The assignment `next <- st` (00_scope R13). -/
def goto (st : SystemState) (t : Tick) : Tick := { t with next := stateCode st }

/-- `RETIDLE()`, the return to idle (43_output_stage R170): the one action taken on an emergency stop, an expiry and the end
of a ramp (60_exceptions R221, R224). It saves nothing, and there is no return from it (R225). -/
def retIdle (t : Tick) : Tick :=
  goto .readyBtnWait { t with regs := setDuty 0 { t.regs with thrust := 0, dur := 0, level := 0 } }

/-- The subtraction of a ramp step: `LEVEL <- LEVEL - STEP; SETDUTY(LEVEL >> 8)`, modulo 2^16 (42_ramp_down R151, R153). -/
def rampSubtract (t : Tick) : Tick :=
  let l : LevelWord := t.regs.level - BitVec.ofNat 16 Constants.rampStep
  { t with regs := setDuty (levelDuty l) { t.regs with level := l } }

/-- Whether the level is depleted: `LEVEL <= STEP` (42_ramp_down R150, R151). -/
def rampDone (s : State) : Bool := decide (s.level.toNat ≤ Constants.rampStep)

/-- A ramp step that compares first (42_ramp_down R151). -/
def rampTestFirst (t : Tick) : Tick := if rampDone t.regs then retIdle t else rampSubtract t

/-- A ramp step that subtracts first and then compares in the same tick: the alternative that 42_ramp_down R153 and decision
D10 set aside. No operation takes it while RAMP_ORDER has its default. -/
def rampSubtractFirst (t : Tick) : Tick :=
  if rampDone (rampSubtract t).regs then retIdle (rampSubtract t) else rampSubtract t

/-- `RAMPSTEP()` in the order RAMP_ORDER names, test first by default (42_ramp_down R151, decision D10). -/
def rampStep (t : Tick) : Tick :=
  match Constants.rampOrder with
  | .testFirst => rampTestFirst t
  | .subtractFirst => rampSubtractFirst t

/-- The arm action on a pressed button (44_state_machine R186, 43_output_stage R169). -/
def armRun (t : Tick) : Tick :=
  let d : Byte := getFilter .throttle t.regs
  goto .thrustBtnWait
    { t with regs := setDuty d { t.regs with
        thrust := d, dur := runDur (getFilter .time t.regs), level := thrustLevel d } }

/-- The debounce timer after a wait state's entry action: DELAY if CHG = 1, else as it is (44_state_machine R181). -/
def entryLoad (chg : Bool) (timer : TimerWord) : TimerWord :=
  if chg then BitVec.ofNat 9 Constants.delay else timer

/-- Steps 2 and 3 of a tick begin with `next <- STATE` (20_memory R60). -/
def beginTick (s : State) : Tick := { regs := s, next := s.state }

/-- Step 4 of a tick: CHG, then STATE, then TICKS (20_memory R60, 10_state R34). -/
def endTick (t : Tick) : State :=
  { t.regs with chg := chgFlag t.regs.state t.next, state := t.next, ticks := t.regs.ticks + 1 }

/-- The frame in which the body of a tick operation runs (20_memory R60). -/
def runTick (body : Tick → Tick) (s : State) : Host.Outcome State Fault Refusal :=
  .next (endTick (body (beginTick s)))

/-- RESET: every register to its reset value, the pulses still to come left as they are (70_reset_and_hazards R250). -/
def resetRegs (s : State) : State := { State.reset with inputs := s.inputs }

end Sys2Proof.Machine
end

