-- ==== Sys2Proof/Machine/Idle.lean ====
section
/-! DEFINITION. The tick operations of the idle states: RBW.TICK, RDY.FEED, RDY.ARM (44_state_machine R182 to R186). -/

namespace Sys2Proof.Machine

/-- The body of RBW.TICK: the entry action, then one tick of the wait (44_state_machine R182). -/
def readyWaitBody (w : InputWord) (t : Tick) : Tick :=
  let timer := entryLoad t.regs.chg t.regs.dbt0
  if timer = 0 then goto .ready { t with regs := { t.regs with dbt0 := timer } }
  else { t with regs := feedBoth w { t.regs with dbt0 := timer - 1 } }

/-- RBW.TICK (44_state_machine R182). -/
def execRbwTick (btn : Bool) (thr tim : Byte) (s : State) : Host.Outcome State Fault Refusal :=
  runTick (readyWaitBody ⟨btn, thr, tim⟩) s

/-- RDY.FEED (44_state_machine R184). -/
def execRdyFeed (thr tim : Byte) (s : State) : Host.Outcome State Fault Refusal :=
  runTick (fun t => { t with regs := feedBoth ⟨false, thr, tim⟩ t.regs }) s

/-- RDY.ARM (44_state_machine R186); the samples are ignored. -/
def execRdyArm (_thr _tim : Byte) (s : State) : Host.Outcome State Fault Refusal := runTick armRun s

end Sys2Proof.Machine
end

