-- ==== Sys2Proof/Machine/RampDown.lean ====
section
/-! DEFINITION. The tick operations of the state THRUST_DOWN: TDN.RAMP, TDN.STOP (44_state_machine R196, R198). -/

namespace Sys2Proof.Machine

/-- TDN.RAMP (44_state_machine R196); the samples are ignored. -/
def execTdnRamp (_thr _tim : Byte) (s : State) : Host.Outcome State Fault Refusal := runTick rampStep s

/-- TDN.STOP, the emergency stop of a ramp (44_state_machine R198); the samples are ignored. -/
def execTdnStop (_thr _tim : Byte) (s : State) : Host.Outcome State Fault Refusal := runTick retIdle s

end Sys2Proof.Machine
end

