-- ==== Sys2Proof/Machine/Reserved.lean ====
section
/-! DEFINITION. The reserved tick words: no operation is defined for them, and the model gives them none (30_encoding R98,
93_implementation_defined U1). -/

namespace Sys2Proof.Machine

/-- RESERVED.ST5 (30_encoding R98). -/
def execReservedSt5 (_btn : Bool) (_thr _tim : Byte) (_s : State) : Host.Outcome State Fault Refusal :=
  .refused (.reservedState 5)

/-- RESERVED.ST6_7 (30_encoding R98). -/
def execReservedSt67 (low : Bool) (_btn : Bool) (_thr _tim : Byte) (_s : State) : Host.Outcome State Fault Refusal :=
  .refused (.reservedState (if low then 7 else 6))

end Sys2Proof.Machine
end

