-- ==== Sys2Proof/Machine/Run.lean ====
section
/-! DEFINITION. The tick operations of the states THRUST_BTN_WAIT and THRUST: TBW.TICK, THR.RUN, THR.STOP
(44_state_machine R188 to R194). -/

namespace Sys2Proof.Machine

/-- The body of TBW.TICK (44_state_machine R188): the entry action, then one tick of the wait, in which the duration is tested
before the timer (R190). -/
def thrustWaitBody (t : Tick) : Tick :=
  let timer := entryLoad t.regs.chg t.regs.dbt1
  if timer = 0 then goto .thrust { t with regs := { t.regs with dbt1 := timer } }
  else
    let left := satdec t.regs.dur
    let t' : Tick := { t with regs := { t.regs with dbt1 := timer - 1, dur := left } }
    if left = 0 then goto .thrustDown t'
    else if timer - 1 = 0 then goto .thrust t'
    else t'

/-- TBW.TICK (44_state_machine R188); the button and the samples are ignored. -/
def execTbwTick (_btn : Bool) (_thr _tim : Byte) (s : State) : Host.Outcome State Fault Refusal :=
  runTick thrustWaitBody s

/-- The body of THR.RUN (44_state_machine R192). -/
def thrustRunBody (t : Tick) : Tick :=
  let t' : Tick := { t with regs := { t.regs with dur := satdec t.regs.dur } }
  if satdec t.regs.dur = 0 then retIdle t' else t'

/-- THR.RUN (44_state_machine R192); the samples are ignored. -/
def execThrRun (_thr _tim : Byte) (s : State) : Host.Outcome State Fault Refusal := runTick thrustRunBody s

/-- THR.STOP, the emergency stop of a run (44_state_machine R194); the samples are ignored. -/
def execThrStop (_thr _tim : Byte) (s : State) : Host.Outcome State Fault Refusal := runTick retIdle s

end Sys2Proof.Machine
end

