-- ==== Sys2Proof/Machine/Dispatch.lean ====
section
/-! DEFINITION. The meaning of every tick operation: one arm per constructor of Instr (30_encoding R94, R98). -/

namespace Sys2Proof.Machine

/-- The effect of one tick operation on the machine. -/
def exec (i : Instr) (s : State) : Host.Outcome State Fault Refusal :=
  match i with
  | .rbwTick btn thr tim => Sys2Proof.Machine.execRbwTick btn thr tim s
  | .rdyFeed thr tim => Sys2Proof.Machine.execRdyFeed thr tim s
  | .rdyArm thr tim => Sys2Proof.Machine.execRdyArm thr tim s
  | .tbwTick btn thr tim => Sys2Proof.Machine.execTbwTick btn thr tim s
  | .thrRun thr tim => Sys2Proof.Machine.execThrRun thr tim s
  | .thrStop thr tim => Sys2Proof.Machine.execThrStop thr tim s
  | .tdnRamp thr tim => Sys2Proof.Machine.execTdnRamp thr tim s
  | .tdnStop thr tim => Sys2Proof.Machine.execTdnStop thr tim s
  | .reservedSt5 btn thr tim => Sys2Proof.Machine.execReservedSt5 btn thr tim s
  | .reservedSt67 low btn thr tim => Sys2Proof.Machine.execReservedSt67 low btn thr tim s

end Sys2Proof.Machine
end

