-- ==== Sys2Proof/Machine/Ports.lean ====
section
/-! DEFINITION. The ports of the block (20_memory R62 to R67): the outputs DUTY and SAMPLE_REQ, and the tick word that the
STATE register and the input ports form at a TICK pulse. Log entry 13. -/

namespace Sys2Proof.Machine

/-- The DUTY port: the DUTY register, continuously visible (20_memory R64). -/
def dutyPort (s : State) : Byte := s.duty

/-- The SAMPLE_REQ port, combinational in the state and BTN: whether this tick consumes the samples (20_memory R65). -/
def sampleReq (s : State) (btn : Bool) : Bool :=
  (s.state == stateCode .readyBtnWait && (s.chg || s.dbt0 != 0)) || (s.state == stateCode .ready && !btn)

/-- The tick word of this tick: STATE, then the input ports (30_encoding R91). -/
def currentTickWord (s : State) (w : InputWord) : TickBits := tickWord s.state w

/-- Place a tick word where the next tick takes it: its ST field in the STATE register, its other fields at the input ports
of the next TICK pulse, RST not asserted (30_encoding R90, R91). Log entry 3. -/
def placeTickWord (s : State) (t : TickBits) : State :=
  { s with
    state := t.extractLsb' 17 3
    inputs := { rst := false, word := inputWordOf (t.extractLsb' 0 17) } :: s.inputs }

/-- What one TICK pulse does: RESET if RST is asserted, else the tick operation that STATE and BTN select
(20_memory R60, R67; 70_reset_and_hazards R250; 60_exceptions R223). `run` is the meaning of the operations. -/
def onPulse (run : Instr → State → Host.Outcome State Fault Refusal) (p : TickInput) (s : State) :
    Host.Outcome State Fault Refusal :=
  if p.rst then .next (resetRegs s) else run (decode (currentTickWord s p.word)) s

/-- Take the next TICK pulse and act on it; with none to come, no register changes (20_memory R61). -/
def takePulse (run : Instr → State → Host.Outcome State Fault Refusal) (s : State) : Host.Outcome State Fault Refusal :=
  match s.inputs with
  | [] => .next s
  | p :: rest => onPulse run p { s with inputs := rest }

end Sys2Proof.Machine
end

