-- ==== Sys2Proof/Machine/Step.lean ====
section
/-! DEFINITION. One step of the machine: one TICK pulse (20_memory R60, R61). -/

namespace Sys2Proof.Machine

/-- One step: the next TICK pulse, with RESET or the tick operation it selects (20_memory R60, R61, R67). -/
def step (s : State) : Host.Outcome State Fault Refusal := takePulse exec s

/-- `s` with the tick word of value `w` where the next step takes it: ST in STATE, the rest at the ports of the next pulse
(30_encoding R91). Bits above `nbits` are 0; the tick word has 20 bits. Log entry 3. -/
def State.withFetchWord (s : State) (nbits w : Nat) : State := placeTickWord s (BitVec.ofNat 20 (w % 2 ^ nbits))

end Sys2Proof.Machine
end

