-- ==== Sys2Proof/Machine/Trace.lean ====
section
/-! DEFINITION. Traces: the textual form of a sequence of input words (30_encoding R100, R101), from its characters to the
TICK pulses it stands for, and the disassembly of a tick word (R102). Log entries 15 and 16. -/

namespace Sys2Proof.Machine

/-- A trace: a sequence of statements, each with the statements after it. A sample written `-` or left out is `none`
(30_encoding R100, R101). -/
inductive Trace where
  | done
  /-- `tick b=<0|1> thr=<0..255> tim=<0..255>` (R100). -/
  | tick (b : Option Bool) (thr tim : Option Byte) (rest : Trace)
  /-- The block `rep <n> (body)` (R100). -/
  | rep (n : Nat) (body rest : Trace)
  /-- `idle <n> thr=<a> tim=<c>` (R101). -/
  | idle (n : Nat) (thr tim : Option Byte) (rest : Trace)
  /-- `press thr=<a> tim=<c>` (R101). -/
  | press (thr tim : Option Byte) (rest : Trace)
  /-- `hold <n> thr=<a> tim=<c>` (R101). -/
  | hold (n : Nat) (thr tim : Option Byte) (rest : Trace)
  /-- `run <n>` (R101). -/
  | run (n : Nat) (rest : Trace)
deriving DecidableEq, Repr

/-- The input word of a base statement; a field that is don't care encodes as 0 (30_encoding R100). -/
def statementWord (b : Option Bool) (thr tim : Option Byte) : InputWord :=
  { btn := b.getD false, sThr := thr.getD 0, sTime := tim.getD 0 }

/-- The input words a trace denotes, in order (30_encoding R100, R101). -/
def traceWords : Trace → List InputWord
  | .done => []
  | .tick b thr tim rest => statementWord b thr tim :: traceWords rest
  | .rep n body rest => (List.replicate n (traceWords body)).flatten ++ traceWords rest
  | .idle n thr tim rest => List.replicate n (statementWord (some false) thr tim) ++ traceWords rest
  | .press thr tim rest => statementWord (some true) thr tim :: traceWords rest
  | .hold n thr tim rest => List.replicate n (statementWord (some true) thr tim) ++ traceWords rest
  | .run n rest => List.replicate n (statementWord (some false) none none) ++ traceWords rest

/-- The TICK pulses of a sequence of input words, RST never asserted. -/
def pulsesOf (ws : List InputWord) : List TickInput := ws.map (fun w => { rst := false, word := w })

/-- The machine with a trace to run: its pulses come before any that were already to come (20_memory R77, R78). -/
def loadTrace (tr : Trace) (s : State) : State := { s with inputs := pulsesOf (traceWords tr) ++ s.inputs }

/-- The lexical elements of a trace's text. -/
inductive Token where
  | newline
  | openBrace
  | closeBrace
  | word (w : List Char)
deriving DecidableEq, Repr

/-- Why a text is no trace. -/
inductive TraceError where
  | unknownStatement (w : List Char)
  | badNumber
  | outOfRange
  | missingCount
  | missingBrace
  | missingNewline
  | tooDeep
deriving DecidableEq, Repr

/-- End the word read so far (its characters in reverse), if any. -/
def endWord (cur : List Char) (rest : List Token) : List Token :=
  if cur.isEmpty then rest else .word cur.reverse :: rest

/-- Cut a text into tokens; `comment` says that a `;` has been read on this line, `cur` is the word read so far, reversed
(30_encoding R100). The two braces are characters 123 and 125. DESIGN CHOICE: beside the blank,
a tab and a carriage return separate words too, on which the spec is silent; log entry 15. -/
def tokens (comment : Bool) (cur : List Char) : List Char → List Token
  | [] => endWord cur []
  | c :: cs =>
    if c = '\n' then endWord cur (.newline :: tokens false [] cs)
    else if comment then tokens true cur cs
    else if c = ';' then endWord cur (tokens true [] cs)
    else if c = ' ' ∨ c = '\t' ∨ c = '\r' then endWord cur (tokens false [] cs)
    else if c.toNat = 123 then endWord cur (.openBrace :: tokens false [] cs)
    else if c.toNat = 125 then endWord cur (.closeBrace :: tokens false [] cs)
    else tokens false (c :: cur) cs

/-- The value of a digit in base 16, upper or lower case. -/
def digitValue (c : Char) : Option Nat :=
  if '0' ≤ c ∧ c ≤ '9' then some (c.toNat - 48)
  else if 'a' ≤ c ∧ c ≤ 'f' then some (c.toNat - 87)
  else if 'A' ≤ c ∧ c ≤ 'F' then some (c.toNat - 55)
  else none

/-- The digits of a number in the given base, most significant first, after the value `acc`. -/
def digits (base acc : Nat) : List Char → Option Nat
  | [] => some acc
  | c :: cs =>
    match digitValue c with
    | some d => if d < base then digits base (acc * base + d) cs else none
    | none => none

/-- A number: decimal, or hexadecimal after `0x` (30_encoding R100). -/
def number : List Char → Option Nat
  | [] => none
  | '0' :: 'x' :: c :: cs => digits 16 0 (c :: cs)
  | c :: cs => digits 10 0 (c :: cs)

/-- A field `<name><value>` with a value below `bound`, if the next token is one: its value, with the tokens after it.
`-` is no value (30_encoding R100). -/
def field (name : List Char) (bound : Nat) : List Token → Except TraceError (Option Nat × List Token)
  | .word w :: ts =>
    if name.isPrefixOf w then
      let v := w.drop name.length
      if v = ['-'] then .ok (none, ts)
      else
        match number v with
        | none => .error .badNumber
        | some n => if n < bound then .ok (some n, ts) else .error .outOfRange
    else .ok (none, .word w :: ts)
  | ts => .ok (none, ts)

/-- The two sample fields, each of which may be left out (30_encoding R100). -/
def sampleFields (ts : List Token) : Except TraceError ((Option Byte × Option Byte) × List Token) := do
  let (thr, ts) ← field ['t', 'h', 'r', '='] 256 ts
  let (tim, ts) ← field ['t', 'i', 'm', '='] 256 ts
  return ((thr.map (BitVec.ofNat 8), tim.map (BitVec.ofNat 8)), ts)

/-- The repeat count of a statement (30_encoding R100, R101). -/
def count : List Token → Except TraceError (Nat × List Token)
  | .word w :: ts =>
    match number w with
    | some n => .ok (n, ts)
    | none => .error .badNumber
  | _ => .error .missingCount

/-- One statement a line: what follows a statement is the end of its line, of its block or of the text
(30_encoding R100). -/
def endStatement : List Token → Except TraceError (List Token)
  | [] => .ok []
  | .newline :: ts => .ok ts
  | .closeBrace :: ts => .ok (.closeBrace :: ts)
  | _ => .error .missingNewline

/-- Skip line ends. -/
def skipNewlines : List Token → List Token
  | .newline :: ts => skipNewlines ts
  | ts => ts

/-- The head of a statement, as the trace it makes of the statements after it, with the tokens after it. A block is read by
`statements`, which hands its own reader for the body as `block`. -/
def statement (block : List Token → Except TraceError (Trace × List Token)) (w : List Char) (ts : List Token) :
    Except TraceError ((Trace → Trace) × List Token) :=
  if w = ['t', 'i', 'c', 'k'] then do
    let (b, ts) ← field ['b', '='] 2 ts
    let ((thr, tim), ts) ← sampleFields ts
    return (.tick (b.map (· == 1)) thr tim, ts)
  else if w = ['i', 'd', 'l', 'e'] then do
    let (n, ts) ← count ts
    let ((thr, tim), ts) ← sampleFields ts
    return (.idle n thr tim, ts)
  else if w = ['p', 'r', 'e', 's', 's'] then do
    let ((thr, tim), ts) ← sampleFields ts
    return (.press thr tim, ts)
  else if w = ['h', 'o', 'l', 'd'] then do
    let (n, ts) ← count ts
    let ((thr, tim), ts) ← sampleFields ts
    return (.hold n thr tim, ts)
  else if w = ['r', 'u', 'n'] then do
    let (n, ts) ← count ts
    return (.run n, ts)
  else if w = ['r', 'e', 'p'] then do
    let (n, ts) ← count ts
    match skipNewlines ts with
    | .openBrace :: ts =>
      let (body, ts) ← block ts
      match ts with
      | .closeBrace :: ts => return (.rep n body, ts)
      | _ => throw .missingBrace
    | _ => throw .missingBrace
  else throw (.unknownStatement w)

/-- The statements up to the end of the text or of the block, with the tokens after them; `fuel` bounds the number of
statements and the depth of blocks together. -/
def statements : Nat → List Token → Except TraceError (Trace × List Token)
  | 0, _ => .error .tooDeep
  | fuel + 1, ts =>
    match ts with
    | [] => .ok (.done, [])
    | .closeBrace :: ts => .ok (.done, .closeBrace :: ts)
    | .newline :: ts => statements fuel ts
    | .openBrace :: _ => .error .missingNewline
    | .word w :: ts => do
      let (make, ts) ← statement (statements fuel) w ts
      let ts ← endStatement ts
      let (rest, ts) ← statements fuel ts
      return (make rest, ts)

/-- The trace a text stands for, or the first reason it is none (30_encoding R100, R101). -/
def parseTrace (text : List Char) : Except TraceError Trace := do
  let ts := tokens false [] text
  let (tr, rest) ← statements (ts.length + 1) ts
  if rest.isEmpty then return tr else throw .missingBrace

/-- A tick operation with its fields as 30_encoding R102 prints them; a sample that the operation ignores is `-`. -/
def printOperation (name thr tim : String) : String := name ++ " thr=" ++ thr ++ " tim=" ++ tim

/-- The disassembly of a tick operation; the reserved words have none (30_encoding R102, R98). -/
def disassemble (i : Instr) : Option String :=
  match i with
  | .rbwTick _ thr tim => some (printOperation (mnemonic i) (toString thr.toNat) (toString tim.toNat))
  | .rdyFeed thr tim => some (printOperation (mnemonic i) (toString thr.toNat) (toString tim.toNat))
  | .rdyArm _ _ => some (printOperation (mnemonic i) "-" "-")
  | .tbwTick _ _ _ => some (printOperation (mnemonic i) "-" "-")
  | .thrRun _ _ => some (printOperation (mnemonic i) "-" "-")
  | .thrStop _ _ => some (printOperation (mnemonic i) "-" "-")
  | .tdnRamp _ _ => some (printOperation (mnemonic i) "-" "-")
  | .tdnStop _ _ => some (printOperation (mnemonic i) "-" "-")
  | .reservedSt5 _ _ _ => none
  | .reservedSt67 _ _ _ _ => none

end Sys2Proof.Machine
end

