-- ==== Sys2Proof/Safety.lean ====
section
/-! DEFINITION. What the spec says holds of the block at every tick boundary: the global invariants of 10_state R41, and which
runs of the machine they are about. -/

namespace Sys2Proof.Machine

/-- 10_state R22, R41 item 1: both filter sums are in range. -/
def SumsInRange (s : State) : Prop := s.fa0.toNat ≤ 261120 ∧ s.fa1.toNat ≤ 261120

/-- 10_state R28, R41 item 2: the duty is the top byte of the level. -/
def DutyIsTopByte (s : State) : Prop := s.duty.toNat = s.level.toNat / 256

/-- 10_state R41 item 3: in an idle state the run registers and the output are zero. -/
def IdleIsOff (s : State) : Prop :=
  s.state = stateCode .readyBtnWait ∨ s.state = stateCode .ready →
    s.thrust = 0 ∧ s.dur = 0 ∧ s.level = 0 ∧ s.duty = 0

/-- 10_state R41 item 4: the debounce timers are at most 499. -/
def TimersInRange (s : State) : Prop := s.dbt0.toNat ≤ 499 ∧ s.dbt1.toNat ≤ 499

/-- 10_state R41 item 5: a run in THRUST has a tick left. -/
def ThrustHasTime (s : State) : Prop := s.state = stateCode .thrust → 1 ≤ s.dur.toNat

/-- 10_state R41 item 6: the machine is not in THRUST_DOWN. -/
def NotThrustDown (s : State) : Prop := s.state ≠ stateCode .thrustDown

/-- 10_state R41 item 7: in a run the duty is the thrust and the level is the thrust shifted up. -/
def RunHoldsDuty (s : State) : Prop :=
  s.state = stateCode .thrustBtnWait ∨ s.state = stateCode .thrust →
    s.duty = s.thrust ∧ s.level.toNat = s.thrust.toNat * 256

/-- 10_state R41 item 8: STATE is one of the five legal values. -/
def StateLegal (s : State) : Prop := s.state.toNat ≤ 4

/-- Why the debounce wait of a run never exhausts its duration (the proof of 44_state_machine R202): on the entry tick the
duration exceeds DELAY, and afterwards it exceeds the timer. DEDUCED: it makes the eight items of R41 inductive,
log entry 18. -/
def WaitHasTime (s : State) : Prop :=
  s.state = stateCode .thrustBtnWait → if s.chg then 500 < s.dur.toNat else s.dbt1.toNat < s.dur.toNat

/-- The global invariants of 10_state R41, with `WaitHasTime`, which they need to be kept by every step. -/
structure Safe (s : State) : Prop where
  sums     : SumsInRange s
  duty     : DutyIsTopByte s
  idle     : IdleIsOff s
  timers   : TimersInRange s
  thrust   : ThrustHasTime s
  notDown  : NotThrustDown s
  run      : RunHoldsDuty s
  legal    : StateLegal s
  wait     : WaitHasTime s

/-- `n` steps of the machine (20_memory R78): the host's run of the machine. -/
def runs (n : Nat) (s : State) : Host.Outcome State Fault Refusal := Host.Core.run Sys2Proof.core n s

/-- The machine is about to take a TICK pulse with RST not asserted and the input word `w` (20_memory R60). -/
def TakesTick (s : State) (w : InputWord) (rest : List TickInput) : Prop := s.inputs = ⟨false, w⟩ :: rest

/-- `s` with the TICK pulse it takes used up. -/
def afterPulse (s : State) (rest : List TickInput) : State := { s with inputs := rest }

/-- The whole tick as the reference listing of 44_state_machine R210 writes it, on the registers as bit vectors: shifts,
additions and subtractions of the registers' widths. The pulse is used up beforehand. -/
def listing (s : State) (w : InputWord) : State :=
  let retIdleRegs (u : State) : State := { u with thrust := 0, dur := 0, level := 0, duty := 0, state := 0 }
  let ramped : LevelWord := s.level - 32
  let left : DurWord := if s.dur = 0 then 0 else s.dur - 1
  let t : State :=
    if s.state = 0 then
      let timer : TimerWord := if s.chg then 500 else s.dbt0
      if timer = 0 then { s with dbt0 := timer, state := 1 }
      else { s with
        dbt0 := timer - 1
        fa0 := s.fa0 + w.sThr.setWidth 18 - (s.fa0 >>> 10)
        fa1 := s.fa1 + w.sTime.setWidth 18 - (s.fa1 >>> 10) }
    else if s.state = 1 then
      if w.btn then { s with
        thrust := (s.fa0 >>> 10).setWidth 8
        dur := 15000 + ((s.fa1 >>> 10) <<< 9)
        duty := (s.fa0 >>> 10).setWidth 8
        level := (s.fa0 >>> 10).setWidth 16 <<< 8
        state := 2 }
      else { s with
        fa0 := s.fa0 + w.sThr.setWidth 18 - (s.fa0 >>> 10)
        fa1 := s.fa1 + w.sTime.setWidth 18 - (s.fa1 >>> 10) }
    else if s.state = 2 then
      let timer : TimerWord := if s.chg then 500 else s.dbt1
      if timer = 0 then { s with dbt1 := timer, state := 3 }
      else { s with
        dbt1 := timer - 1
        dur := left
        state := if left = 0 then 4 else if timer - 1 = 0 then 3 else 2 }
    else if s.state = 3 then
      if w.btn then retIdleRegs s
      else if left = 0 then retIdleRegs s
      else { s with dur := left }
    else
      if w.btn then retIdleRegs s
      else if s.level ≤ 32 then retIdleRegs s
      else { s with level := ramped, duty := (ramped >>> 8).setWidth 8 }
  { t with chg := t.state != s.state, ticks := s.ticks + 1 }

end Sys2Proof.Machine
end

