-- ==== Sys2Proof/Certificates/Slice0/Obligations.lean ====
section
/-! DEFINITION. The statements for the provers. Each docstring names the rule of spec/ it formalises; `0`, `1`, `2`, `3`, `4`
are the codes of READY_BTN_WAIT, READY, THRUST_BTN_WAIT, THRUST and THRUST_DOWN (30_encoding R94). -/

open Sys2Proof Sys2Proof.Machine

/-! ### Encoding -/

/-- 30_encoding sections 1 and 3: decoding the tick word of any instruction, at every value of every field, gives it back.
-/
def Obligations.DecodeEncodeRoundTrip : Prop := ∀ i : Instr, decode (encode i) = i

/-- 30_encoding sections 1 and 3: encoding what a tick word decodes to gives the word back, so that no bit is dropped and
each word has one meaning. -/
def Obligations.EncodeDecodeRoundTrip : Prop := ∀ t : TickBits, encode (decode t) = t

/-- 30_encoding R94: the state codes; each row of the opcode map selects its operation with the fields of R91; the ten rows
are disjoint and cover all words. -/
def Obligations.OpcodeMapSelectsOperation : Prop :=
  (stateCode .readyBtnWait = 0 ∧ stateCode .ready = 1 ∧ stateCode .thrustBtnWait = 2 ∧ stateCode .thrust = 3 ∧
    stateCode .thrustDown = 4) ∧
  ∀ t : TickBits,
    let thr := t.extractLsb' 8 8
    let tim := t.extractLsb' 0 8
    let btn := t.getLsbD 16
    (t &&& 0xE0000 = 0x00000 → decode t = .rbwTick btn thr tim) ∧
    (t &&& 0xF0000 = 0x20000 → decode t = .rdyFeed thr tim) ∧
    (t &&& 0xF0000 = 0x30000 → decode t = .rdyArm thr tim) ∧
    (t &&& 0xE0000 = 0x40000 → decode t = .tbwTick btn thr tim) ∧
    (t &&& 0xF0000 = 0x60000 → decode t = .thrRun thr tim) ∧
    (t &&& 0xF0000 = 0x70000 → decode t = .thrStop thr tim) ∧
    (t &&& 0xF0000 = 0x80000 → decode t = .tdnRamp thr tim) ∧
    (t &&& 0xF0000 = 0x90000 → decode t = .tdnStop thr tim) ∧
    (t &&& 0xE0000 = 0xA0000 → decode t = .reservedSt5 btn thr tim) ∧
    (t &&& 0xC0000 = 0xC0000 → decode t = .reservedSt67 (t.getLsbD 17) btn thr tim) ∧
    ([(0x00000, 0xE0000), (0x20000, 0xF0000), (0x30000, 0xF0000), (0x40000, 0xE0000), (0x60000, 0xF0000),
      (0x70000, 0xF0000), (0x80000, 0xF0000), (0x90000, 0xF0000), (0xA0000, 0xE0000), (0xC0000, 0xC0000)].countP
        (fun r : TickBits × TickBits => t &&& r.2 == r.1) = 1)

/-- 30_encoding R91 (and the input word of R92): the tick word as a number, and its fields bit by bit. -/
def Obligations.TickWordFields : Prop :=
  ∀ (st : StateCode) (w : InputWord),
    (tickWord st w).toNat =
      st.toNat * 2 ^ 17 + (if w.btn then 2 ^ 16 else 0) + w.sThr.toNat * 2 ^ 8 + w.sTime.toNat ∧
    (tickWord st w).extractLsb' 17 3 = st ∧ (tickWord st w).getLsbD 16 = w.btn ∧
    (tickWord st w).extractLsb' 8 8 = w.sThr ∧ (tickWord st w).extractLsb' 0 8 = w.sTime ∧
    (tickWord st w).extractLsb' 0 17 = inputBits w ∧ inputWordOf (inputBits w) = w

/-- 95_test_vectors section 4: some words written out, and the operations they select. -/
def Obligations.DecodeOfSpecWords : Prop :=
  decode 0x00000 = .rbwTick false 0 0 ∧ decode 0x1FFFF = .rbwTick true 255 255 ∧ decode 0x28000 = .rdyFeed 128 0 ∧
  decode 0x2FFFF = .rdyFeed 255 255 ∧ decode 0x38000 = .rdyArm 128 0 ∧ decode 0x50102 = .tbwTick true 1 2 ∧
  decode 0x60304 = .thrRun 3 4 ∧ decode 0x7FFFF = .thrStop 255 255 ∧ decode 0x80000 = .tdnRamp 0 0 ∧
  decode 0x90909 = .tdnStop 9 9 ∧ decode 0xA0000 = .reservedSt5 false 0 0 ∧
  decode 0xC0000 = .reservedSt67 false false 0 0 ∧ decode 0xFFFFF = .reservedSt67 true true 255 255 ∧
  decodeTableWord 24 0x30709 = some (.rdyArm 7 9) ∧ decodeTableWord 24 0x100000 = none

/-- 30_encoding section 4: the word that STATE and the ports form is a tick operation exactly where STATE is legal. -/
def Obligations.LegalStateDecodesToOperation : Prop :=
  ∀ (st : StateCode) (w : InputWord), (decode (tickWord st w)).WellFormed ↔ st.toNat ≤ 4

/-- 30_encoding R98: the reserved words are refused, by name, in every state, and no operation writes 5, 6 or 7 to STATE,
nor does reset. That STATE is kept as 3 bits, so that R98's second option applies, is the model's choice: log entry 4. -/
def Obligations.ReservedWordsRefused : Prop :=
  (∀ (btn : Bool) (thr tim : Byte) (s : State), exec (.reservedSt5 btn thr tim) s = .refused (.reservedState 5)) ∧
  (∀ (low btn : Bool) (thr tim : Byte) (s : State),
    exec (.reservedSt67 low btn thr tim) s = .refused (.reservedState (if low then 7 else 6))) ∧
  (∀ (t : TickBits) (s : State), t &&& 0xE0000 = 0xA0000 ∨ t &&& 0xC0000 = 0xC0000 →
    exec (decode t) s = .refused (.reservedState (t.extractLsb' 17 3))) ∧
  (∀ (i : Instr) (s t : State), s.state.toNat ≤ 4 → exec i s = .next t → t.state.toNat ≤ 4) ∧
  State.reset.state = 0

/-! ### The step and reset -/

/-- 20_memory section 1: at a TICK pulse without RST the step is the decoded operation, on the state with the pulse used up.
Nothing else stands around it. -/
def Obligations.StepRunsDecodedOperation : Prop :=
  ∀ (s : State) (w : InputWord) (rest : List TickInput), TakesTick s w rest →
    step s = exec (decode (tickWord s.state w)) (afterPulse s rest)

/-- 20_memory section 1, log entries 2 and 3: with no TICK pulse no register changes, and a tick word that is placed is the
one the next step runs. -/
def Obligations.PlacedWordRunsNext : Prop :=
  (∀ s : State, s.inputs = [] → step s = .next s) ∧
  ∀ (s : State) (w : Nat), w < 2 ^ 20 →
    step (s.withFetchWord 24 w) = exec (decode (BitVec.ofNat 20 w)) { s with state := (BitVec.ofNat 20 w).extractLsb' 17 3 }

/-- 10_state R38: the reset values. -/
def Obligations.ResetValues : Prop :=
  State.reset = { fa0 := 0, fa1 := 0, thrust := 0, dur := 0, level := 0, duty := 0, dbt0 := 0, dbt1 := 0, state := 0,
                  chg := true, ticks := 0, inputs := [] }

/-- 70_reset_and_hazards section 1: RST at a pulse resets every register in place of the tick operation, whatever the state,
and the registers keep the reset values for as long as RST stays asserted. -/
def Obligations.ResetHoldsWhileAsserted : Prop :=
  ∀ (s : State) (ps rest : List TickInput), ps ≠ [] → (∀ p ∈ ps, p.rst = true) → s.inputs = ps ++ rest →
    runs ps.length s = .next { fa0 := 0, fa1 := 0, thrust := 0, dur := 0, level := 0, duty := 0, dbt0 := 0, dbt1 := 0,
                               state := 0, chg := true, ticks := 0, inputs := rest }

/-- 20_memory R60: one tick in every legal state: the operation that STATE and BTN select runs, and then CHG says whether
STATE changed and TICKS has gone up by one, modulo 2^32. -/
def Obligations.TickFrame : Prop :=
  ∀ (s : State) (w : InputWord) (rest : List TickInput), s.state.toNat ≤ 4 → TakesTick s w rest →
    ∃ t, step s = .next t ∧ exec (decode (tickWord s.state w)) (afterPulse s rest) = .next t ∧
      t.chg = decide (t.state ≠ s.state) ∧ t.ticks.toNat = (s.ticks.toNat + 1) % 2 ^ 32 ∧ t.inputs = rest

/-- 44_state_machine R208 (the spec's own inference from R95 and R182 to R198): in each legal state and for each input word
exactly one operation applies, and it has exactly one outcome, a next state. -/
def Obligations.StepIsTotal : Prop :=
  ∀ (s : State) (w : InputWord) (rest : List TickInput), s.state.toNat ≤ 4 → TakesTick s w rest →
    (∃ i : Instr, i.WellFormed ∧ ∀ j : Instr, encode j = tickWord s.state w ↔ j = i) ∧
    ∃ t, step s = .next t ∧ ∀ u, step s = .next u ↔ u = t

/-- 10_state R34: TICKS starts at 0, goes up by one at every tick, wraps at 2^32, and influences nothing. -/
def Obligations.TicksCountsAndInfluencesNothing : Prop :=
  State.reset.ticks = 0 ∧
  ∀ (s : State) (w : InputWord) (rest : List TickInput), s.state.toNat ≤ 4 → TakesTick s w rest →
    ∃ t, step s = .next t ∧ t.ticks.toNat = (s.ticks.toNat + 1) % 2 ^ 32 ∧
      ∀ k : TickCount, step { s with ticks := k } = .next { t with ticks := k + 1 }

/-! ### The primitives -/

/-- 40_filter R121: a feed writes the one sum with the exact integer recurrence, which fits the register from every start
value and keeps the range 0..261120. -/
def Obligations.FeedRecurrence : Prop :=
  ∀ (c : Channel) (smp : Byte) (s : State),
    ((readSum (feed c smp s) c).toNat : Int) =
      (readSum s c).toNat + smp.toNat - ((readSum s c).toNat / 1024 : Nat) ∧
    ((readSum s c).toNat ≤ 261120 → (readSum (feed c smp s) c).toNat ≤ 261120) ∧
    feed c smp s = writeSum c (readSum (feed c smp s) c) s

/-- 40_filter R122: the output of a filter is the upper eight bits of its sum. -/
def Obligations.GetIsUpperBits : Prop :=
  ∀ (c : Channel) (s : State),
    getFilter c s = (readSum s c).extractLsb' 10 8 ∧ (getFilter c s).toNat = (readSum s c).toNat / 1024

/-- 40_filter R126 (the spec's own inference from R121): the two filters are independent: a feed of one leaves the other,
depends on the fed sum and the sample alone, and the two feeds commute. -/
def Obligations.FiltersIndependent : Prop :=
  ∀ (s : State) (a b : Byte),
    (∀ c d : Channel, c ≠ d → readSum (feed c a s) d = readSum s d) ∧
    (∀ (c : Channel) (u : State), readSum u c = readSum s c → readSum (feed c a u) c = readSum (feed c a s) c) ∧
    feed .time b (feed .throttle a s) = feed .throttle a (feed .time b s)

/-- 40_filter R128 (the spec's own inference from R121): what a filter does on a constant input `v`: its fixed points, its
strict rise to 1024v and its strict fall to 1024v + 1023, without overshoot, and that it reaches them and stays. -/
def Obligations.FilterConvergesOnConstant : Prop :=
  ∀ (c : Channel) (v : Byte) (s : State), (readSum s c).toNat ≤ 261120 →
    (readSum (feed c v s) c = readSum s c ↔ (readSum s c).toNat / 1024 = v.toNat) ∧
    ((readSum s c).toNat < 1024 * v.toNat →
      (readSum s c).toNat < (readSum (feed c v s) c).toNat ∧ (readSum (feed c v s) c).toNat ≤ 1024 * v.toNat ∧
      ∃ n, ∀ m, n ≤ m → (readSum ((feed c v)^[m] s) c).toNat = 1024 * v.toNat ∧ getFilter c ((feed c v)^[m] s) = v) ∧
    (1024 * v.toNat + 1023 < (readSum s c).toNat →
      (readSum (feed c v s) c).toNat < (readSum s c).toNat ∧ 1024 * v.toNat + 1023 ≤ (readSum (feed c v s) c).toNat ∧
      ∃ n, ∀ m, n ≤ m →
        (readSum ((feed c v)^[m] s) c).toNat = 1024 * v.toNat + 1023 ∧ getFilter c ((feed c v)^[m] s) = v)

/-- 70_reset_and_hazards R262 (the spec's own inference from R121 and R128): the truncation hysteresis: from an output `v`,
a constant input one unit higher shows after exactly 1024 less the fraction feeds, one unit lower after exactly the fraction
plus one. -/
def Obligations.OneUnitStepLatency : Prop :=
  ∀ (c : Channel) (v x : Byte) (s : State), (readSum s c).toNat / 1024 = v.toNat →
    (x.toNat = v.toNat + 1 → ∀ k,
      (k < 1024 - (readSum s c).toNat % 1024 → getFilter c ((feed c x)^[k] s) = v) ∧
      (k = 1024 - (readSum s c).toNat % 1024 → getFilter c ((feed c x)^[k] s) = x)) ∧
    (x.toNat + 1 = v.toNat → ∀ k,
      (k < (readSum s c).toNat % 1024 + 1 → getFilter c ((feed c x)^[k] s) = v) ∧
      (k = (readSum s c).toNat % 1024 + 1 → getFilter c ((feed c x)^[k] s) = x))

/-- 41_run_duration R140, R141: the duration formula, its range and its step. -/
def Obligations.RunDurationFormula : Prop :=
  ∀ t : Byte,
    (runDur t).toNat = 15000 + t.toNat * 512 ∧ 15000 ≤ (runDur t).toNat ∧ (runDur t).toNat ≤ 145560 ∧
    (runDur 0).toNat = 15000 ∧ (runDur 255).toNat = 145560 ∧
    ∀ u : Byte, u.toNat = t.toNat + 1 → (runDur u).toNat = (runDur t).toNat + 512

/-! ### The eight tick operations: result, frame and completion in one equation -/

/-- 44_state_machine R182: RBW.TICK, whatever the button. -/
def Obligations.RbwTickResult : Prop :=
  ∀ (btn : Bool) (thr tim : Byte) (s : State), s.state = 0 →
    let timer := if s.chg then 500 else s.dbt0.toNat
    if 0 < timer then
      exec (.rbwTick btn thr tim) s = .next { s with
        dbt0 := BitVec.ofNat 9 (timer - 1)
        fa0 := BitVec.ofNat 18 (s.fa0.toNat + thr.toNat - s.fa0.toNat / 1024)
        fa1 := BitVec.ofNat 18 (s.fa1.toNat + tim.toNat - s.fa1.toNat / 1024)
        chg := false
        ticks := s.ticks + 1 }
    else exec (.rbwTick btn thr tim) s = .next { s with state := 1, chg := true, ticks := s.ticks + 1 }

/-- 44_state_machine R184: RDY.FEED. -/
def Obligations.RdyFeedResult : Prop :=
  ∀ (thr tim : Byte) (s : State), s.state = 1 →
    exec (.rdyFeed thr tim) s = .next { s with
      fa0 := BitVec.ofNat 18 (s.fa0.toNat + thr.toNat - s.fa0.toNat / 1024)
      fa1 := BitVec.ofNat 18 (s.fa1.toNat + tim.toNat - s.fa1.toNat / 1024)
      chg := false
      ticks := s.ticks + 1 }

/-- 44_state_machine R186: RDY.ARM, whatever the samples. -/
def Obligations.RdyArmResult : Prop :=
  ∀ (thr tim : Byte) (s : State), s.state = 1 →
    exec (.rdyArm thr tim) s = .next { s with
      thrust := BitVec.ofNat 8 (s.fa0.toNat / 1024)
      dur := BitVec.ofNat 18 (15000 + s.fa1.toNat / 1024 * 512)
      duty := BitVec.ofNat 8 (s.fa0.toNat / 1024)
      level := BitVec.ofNat 16 (s.fa0.toNat / 1024 * 256)
      state := 2
      chg := true
      ticks := s.ticks + 1 }

/-- 44_state_machine R188: TBW.TICK, whatever the button and the samples; the duration is tested before the timer. -/
def Obligations.TbwTickResult : Prop :=
  ∀ (btn : Bool) (thr tim : Byte) (s : State), s.state = 2 →
    let timer := if s.chg then 500 else s.dbt1.toNat
    if 0 < timer then
      if s.dur.toNat ≤ 1 then
        exec (.tbwTick btn thr tim) s = .next { s with
          dbt1 := BitVec.ofNat 9 (timer - 1), dur := 0, state := 4, chg := true, ticks := s.ticks + 1 }
      else if timer = 1 then
        exec (.tbwTick btn thr tim) s = .next { s with
          dbt1 := 0, dur := BitVec.ofNat 18 (s.dur.toNat - 1), state := 3, chg := true, ticks := s.ticks + 1 }
      else
        exec (.tbwTick btn thr tim) s = .next { s with
          dbt1 := BitVec.ofNat 9 (timer - 1), dur := BitVec.ofNat 18 (s.dur.toNat - 1), chg := false,
          ticks := s.ticks + 1 }
    else exec (.tbwTick btn thr tim) s = .next { s with state := 3, chg := true, ticks := s.ticks + 1 }

/-- 44_state_machine R192: THR.RUN; on expiry the hard cut-off of 43_output_stage R170. -/
def Obligations.ThrRunResult : Prop :=
  ∀ (thr tim : Byte) (s : State), s.state = 3 →
    if s.dur.toNat ≤ 1 then
      exec (.thrRun thr tim) s = .next { s with
        thrust := 0, dur := 0, level := 0, duty := 0, state := 0, chg := true, ticks := s.ticks + 1 }
    else
      exec (.thrRun thr tim) s = .next { s with
        dur := BitVec.ofNat 18 (s.dur.toNat - 1), chg := false, ticks := s.ticks + 1 }

/-- 44_state_machine R194: THR.STOP. -/
def Obligations.ThrStopResult : Prop :=
  ∀ (thr tim : Byte) (s : State), s.state = 3 →
    exec (.thrStop thr tim) s = .next { s with
      thrust := 0, dur := 0, level := 0, duty := 0, state := 0, chg := true, ticks := s.ticks + 1 }

/-- 44_state_machine R196, with 42_ramp_down R151: TDN.RAMP compares first, then subtracts. -/
def Obligations.TdnRampResult : Prop :=
  ∀ (thr tim : Byte) (s : State), s.state = 4 →
    if s.level.toNat ≤ 32 then
      exec (.tdnRamp thr tim) s = .next { s with
        thrust := 0, dur := 0, level := 0, duty := 0, state := 0, chg := true, ticks := s.ticks + 1 }
    else
      exec (.tdnRamp thr tim) s = .next { s with
        level := BitVec.ofNat 16 (s.level.toNat - 32)
        duty := BitVec.ofNat 8 ((s.level.toNat - 32) / 256)
        chg := false
        ticks := s.ticks + 1 }

/-- 44_state_machine R198: TDN.STOP. -/
def Obligations.TdnStopResult : Prop :=
  ∀ (thr tim : Byte) (s : State), s.state = 4 →
    exec (.tdnStop thr tim) s = .next { s with
      thrust := 0, dur := 0, level := 0, duty := 0, state := 0, chg := true, ticks := s.ticks + 1 }

/-- 44_state_machine R210 (the spec's own inference from the rules it restates): the step is the reference listing, written
on bit vectors. -/
def Obligations.StepRefinesReferenceListing : Prop :=
  ∀ (s : State) (w : InputWord) (rest : List TickInput), s.state.toNat ≤ 4 → TakesTick s w rest →
    step s = .next (listing (afterPulse s rest) w)

/-! ### Frames -/

/-- 10_state section 10: what the feeding operations RBW.TICK and RDY.FEED leave unchanged, in every state. -/
def Obligations.FeedingOperationsFrame : Prop :=
  ∀ (btn : Bool) (thr tim : Byte) (s t : State),
    (exec (.rbwTick btn thr tim) s = .next t →
      t.thrust = s.thrust ∧ t.dur = s.dur ∧ t.level = s.level ∧ t.duty = s.duty ∧ t.dbt1 = s.dbt1 ∧ t.inputs = s.inputs) ∧
    (exec (.rdyFeed thr tim) s = .next t →
      t.thrust = s.thrust ∧ t.dur = s.dur ∧ t.level = s.level ∧ t.duty = s.duty ∧ t.dbt0 = s.dbt0 ∧ t.dbt1 = s.dbt1 ∧
      t.state = s.state ∧ t.inputs = s.inputs)

/-- 10_state section 10: what RDY.ARM and TBW.TICK leave unchanged, in every state: both filter sums, DBT0, and for the wait
also the output. -/
def Obligations.ArmAndWaitFrame : Prop :=
  ∀ (btn : Bool) (thr tim : Byte) (s t : State),
    (exec (.rdyArm thr tim) s = .next t →
      t.fa0 = s.fa0 ∧ t.fa1 = s.fa1 ∧ t.dbt0 = s.dbt0 ∧ t.dbt1 = s.dbt1 ∧ t.inputs = s.inputs) ∧
    (exec (.tbwTick btn thr tim) s = .next t →
      t.fa0 = s.fa0 ∧ t.fa1 = s.fa1 ∧ t.dbt0 = s.dbt0 ∧ t.thrust = s.thrust ∧ t.level = s.level ∧ t.duty = s.duty ∧
      t.inputs = s.inputs)

/-- 10_state section 10: what the four operations of THRUST and THRUST_DOWN leave unchanged, in every state: both filter
sums and both timers; and where TDN.RAMP does not return to idle, THRUST and DUR. -/
def Obligations.RunOperationsFrame : Prop :=
  ∀ (thr tim : Byte) (i : Instr) (s t : State),
    i = .thrRun thr tim ∨ i = .thrStop thr tim ∨ i = .tdnRamp thr tim ∨ i = .tdnStop thr tim → exec i s = .next t →
      t.fa0 = s.fa0 ∧ t.fa1 = s.fa1 ∧ t.dbt0 = s.dbt0 ∧ t.dbt1 = s.dbt1 ∧ t.inputs = s.inputs ∧
      (i = .tdnRamp thr tim → 32 < s.level.toNat → t.thrust = s.thrust ∧ t.dur = s.dur ∧ t.state = s.state) ∧
      (i = .thrRun thr tim → 1 < s.dur.toNat →
        t.thrust = s.thrust ∧ t.level = s.level ∧ t.duty = s.duty ∧ t.state = s.state)

/-! ### Laws of the state machine -/

/-- 44_state_machine R200 (the spec's own inference from R182 to R198): the complete transition relation, for every legal
state and input word, and reset. -/
def Obligations.TransitionRelation : Prop :=
  (∀ (s : State) (w : InputWord) (rest : List TickInput), s.inputs = ⟨true, w⟩ :: rest →
    ∃ t, step s = .next t ∧ t.state = 0) ∧
  ∀ (s : State) (w : InputWord) (rest : List TickInput), s.state.toNat ≤ 4 → TakesTick s w rest →
    ∃ t, step s = .next t ∧ t.chg = decide (t.state ≠ s.state) ∧
      t.state =
        if s.state = 0 then (if (if s.chg then 500 else s.dbt0.toNat) = 0 then 1 else 0)
        else if s.state = 1 then (if w.btn then 2 else 1)
        else if s.state = 2 then
          (if (if s.chg then 500 else s.dbt1.toNat) = 0 then 3
           else if s.dur.toNat - 1 = 0 then 4
           else if (if s.chg then 500 else s.dbt1.toNat) - 1 = 0 then 3 else 2)
        else if s.state = 3 then (if w.btn ∨ s.dur.toNat - 1 = 0 then 0 else 3)
        else (if w.btn ∨ s.level.toNat ≤ 32 then 0 else 4)

/-- 30_encoding R99 (the spec's own inference from R182 to R198): the bits a tick ignores have no effect: two pulses that
agree on BTN where the button is read, and on the samples where they are consumed, step alike. In a legal state the tick
completes: no encoding traps. -/
def Obligations.IgnoredBitsHaveNoEffect : Prop :=
  ∀ (s : State) (w w' : InputWord) (rest : List TickInput),
    (s.state = 1 ∨ s.state = 3 ∨ s.state = 4 → w.btn = w'.btn) →
    ((s.state = 0 ∧ (s.chg = true ∨ 0 < s.dbt0.toNat)) ∨ (s.state = 1 ∧ w.btn = false) →
      w.sThr = w'.sThr ∧ w.sTime = w'.sTime) →
    step { s with inputs := ⟨false, w⟩ :: rest } = step { s with inputs := ⟨false, w'⟩ :: rest } ∧
    (s.state.toNat ≤ 4 → ∃ t, step { s with inputs := ⟨false, w⟩ :: rest } = .next t)

/-- 20_memory R65 (the spec's own inference from R182 and R184): SAMPLE_REQ is 1 in exactly the ticks that feed the filters:
with it both sums take the recurrence, without it both keep their values. -/
def Obligations.SampleReqMarksFeedingTicks : Prop :=
  ∀ (s : State) (w : InputWord) (rest : List TickInput), s.state.toNat ≤ 4 → TakesTick s w rest →
    (sampleReq s w.btn = true ↔
      (s.state = 0 ∧ (s.chg = true ∨ 0 < s.dbt0.toNat)) ∨ (s.state = 1 ∧ w.btn = false)) ∧
    ∃ t, step s = .next t ∧
      if sampleReq s w.btn then
        t.fa0.toNat = s.fa0.toNat + w.sThr.toNat - s.fa0.toNat / 1024 ∧
        t.fa1.toNat = s.fa1.toNat + w.sTime.toNat - s.fa1.toNat / 1024
      else t.fa0 = s.fa0 ∧ t.fa1 = s.fa1

/-- 44_state_machine R205 (the spec's own inference from R170, R194, R198): the emergency stop, and that there is none in
THRUST_BTN_WAIT. -/
def Obligations.EmergencyStop : Prop :=
  (∀ (s : State) (w : InputWord) (rest : List TickInput), s.state = 3 ∨ s.state = 4 → w.btn = true → TakesTick s w rest →
    step s = .next { s with
      duty := 0, level := 0, thrust := 0, dur := 0, state := 0, chg := true, ticks := s.ticks + 1, inputs := rest }) ∧
  ∀ (s : State) (w : InputWord) (rest : List TickInput), s.state = 2 →
    step { s with inputs := ⟨false, { w with btn := true }⟩ :: rest } =
      step { s with inputs := ⟨false, { w with btn := false }⟩ :: rest }

/-- 44_state_machine R206 (the spec's own inference from R182 and R188): in the two wait states the button changes nothing;
in the other three a pressed button is acted on in the tick. -/
def Obligations.DebounceIgnoresButton : Prop :=
  ∀ (s : State) (w : InputWord) (b : Bool) (rest : List TickInput),
    (s.state = 0 ∨ s.state = 2 →
      step { s with inputs := ⟨false, w⟩ :: rest } = step { s with inputs := ⟨false, { w with btn := b }⟩ :: rest }) ∧
    (s.state = 1 ∨ s.state = 3 ∨ s.state = 4 →
      ∃ t, step { s with inputs := ⟨false, { w with btn := true }⟩ :: rest } = .next t ∧ t.state ≠ s.state)

/-- 60_exceptions section 3: where a press coincides with the expiry of a run or the end of a ramp, the result is the one
without the press; where a press meets a ramp that goes on, it wins. -/
def Obligations.StopAndExpiryCoincide : Prop :=
  ∀ (s : State) (w : InputWord) (rest : List TickInput),
    let pressed := { s with inputs := ⟨false, { w with btn := true }⟩ :: rest }
    let released := { s with inputs := ⟨false, { w with btn := false }⟩ :: rest }
    ((s.state = 3 ∧ s.dur.toNat ≤ 1) ∨ (s.state = 4 ∧ s.level.toNat ≤ 32) → step pressed = step released) ∧
    (s.state = 4 → ∃ t, step pressed = .next t ∧ t.state = 0 ∧ t.level = 0 ∧ t.duty = 0)

/-- 43_output_stage R171: which ticks outside READY_BTN_WAIT go idle, and that each of them zeroes the output in the same
tick. -/
def Obligations.IdleEntryZeroesOutput : Prop :=
  ∀ (s : State) (w : InputWord) (rest : List TickInput), s.state.toNat ≤ 4 → s.state ≠ 0 → TakesTick s w rest →
    ∃ t, step s = .next t ∧
      (t.state = 0 ↔
        (s.state = 3 ∧ (w.btn = true ∨ s.dur.toNat ≤ 1)) ∨ (s.state = 4 ∧ (w.btn = true ∨ s.level.toNat ≤ 32))) ∧
      (t.state = 0 → t.duty = 0 ∧ t.level = 0 ∧ t.thrust = 0 ∧ t.dur = 0)

/-- 43_output_stage section 1: the duty changes only in an arm tick, in a ramp tick, or in a tick that returns to idle. -/
def Obligations.DutyHoldsElsewhere : Prop :=
  ∀ (s : State) (w : InputWord) (rest : List TickInput), s.state.toNat ≤ 4 → TakesTick s w rest →
    ∃ t, step s = .next t ∧
      (¬ (s.state = 1 ∧ w.btn = true) → s.state ≠ 4 → ¬ (s.state = 3 ∧ t.state = 0) → t.duty = s.duty)

/-- 10_state section 3: no rule reads THRUST: states that differ in it alone step to states that differ in it alone. -/
def Obligations.ThrustIsReadByNothing : Prop :=
  ∀ (s : State) (x : Byte), s.state.toNat ≤ 4 →
    ∃ t y, step s = .next t ∧ step { s with thrust := x } = .next { t with thrust := y }

/-- 42_ramp_down R154 (the spec's own inference from R151): in THRUST_DOWN with the button released and the level above
STEP, the level goes down by exactly STEP and stays in 1..0xFFDF, and the duty does not rise. -/
def Obligations.RampIsMonotone : Prop :=
  ∀ (s : State) (w : InputWord) (rest : List TickInput), DutyIsTopByte s → s.state = 4 → w.btn = false →
    32 < s.level.toNat → TakesTick s w rest →
    ∃ t, step s = .next t ∧ t.state = 4 ∧ t.level.toNat + 32 = s.level.toNat ∧
      1 ≤ t.level.toNat ∧ t.level.toNat ≤ 0xFFFF - 32 ∧ t.duty.toNat ≤ s.duty.toNat

/-- 42_ramp_down section 1 and log entry 8: the two orders of RAMP_ORDER. The default compares first, so no level wraps; the
order set aside wraps below STEP, ends one tick earlier from a level up to twice STEP, and agrees elsewhere. -/
def Obligations.RampOrdersCompared : Prop :=
  ∀ t : Tick,
    rampStep t = rampTestFirst t ∧
    (t.regs.level.toNat ≤ 32 → rampTestFirst t = retIdle t) ∧
    (t.regs.level.toNat < 32 →
      (rampSubtractFirst t).regs.level.toNat = t.regs.level.toNat + 0xFFE0 ∧ (rampSubtractFirst t).regs.duty = 255 ∧
      (rampSubtractFirst t).next = t.next) ∧
    (32 < t.regs.level.toNat → t.regs.level.toNat ≤ 64 →
      (rampTestFirst t).next = t.next ∧ (rampSubtractFirst t).next = 0 ∧ (rampSubtractFirst t).regs.level = 0) ∧
    (t.regs.level.toNat = 32 ∨ 64 < t.regs.level.toNat → rampSubtractFirst t = rampTestFirst t)

/-! ### Invariants -/

/-- 10_state R22 (the spec's own inference from R121 and R124): the filter sums stay in range, so that the output of a
filter is a byte. -/
def Obligations.FilterSumsStayInRange : Prop :=
  SumsInRange State.reset ∧
  (∀ s t : State, SumsInRange s → step s = .next t → SumsInRange t) ∧
  ∀ (s : State) (c : Channel), SumsInRange s →
    (readSum s c).toNat / 1024 ≤ 255 ∧ (getFilter c s).toNat = (readSum s c).toNat / 1024

/-- 10_state R28 (the spec's own inference from the rules that write DUTY or LEVEL): the duty is the top byte of the level,
at reset and after every step from any state in which it is. -/
def Obligations.DutyStaysTopByte : Prop :=
  DutyIsTopByte State.reset ∧ ∀ s t : State, DutyIsTopByte s → step s = .next t → DutyIsTopByte t

/-- 43_output_stage R172 (the spec's own inference from R38, R170, R186): the motor is never driven in an idle state, at
reset and after every step from any legal state in which that holds; a run with duty 0 exists. -/
def Obligations.IdleStaysOff : Prop :=
  (IdleIsOff State.reset ∧ ∀ s t : State, IdleIsOff s → step s = .next t → IdleIsOff t) ∧
  (∀ s : State, IdleIsOff s → s.state.toNat ≤ 4 → s.duty ≠ 0 → s.state = 2 ∨ s.state = 3 ∨ s.state = 4) ∧
  ∃ s t : State, Safe s ∧ step s = .next t ∧ t.state = 2 ∧ t.duty = 0

/-- The invariant of the whole machine (10_state section 11, with the model's `WaitHasTime`, log entry 18) holds at reset.
-/
def Obligations.SafeAtReset : Prop := Safe State.reset

/-- The invariant of the whole machine (10_state section 11, with the model's `WaitHasTime`, log entry 18) is kept by every
step, and a step from it always answers a next state. -/
def Obligations.SafeKeptByStep : Prop :=
  ∀ s : State, Safe s → ∃ t, step s = .next t ∧ Safe t

/-- 10_state R41 (the spec's own inference from R38, R60 and the tick operations): at reset and after every tick, for every
sequence of pulses, the eight invariants hold. -/
def Obligations.GlobalInvariantsFromReset : Prop :=
  ∀ (ps : List TickInput) (n : Nat),
    ∃ t, runs n { State.reset with inputs := ps } = .next t ∧
      SumsInRange t ∧ DutyIsTopByte t ∧ IdleIsOff t ∧ TimersInRange t ∧ ThrustHasTime t ∧ NotThrustDown t ∧
      RunHoldsDuty t ∧ StateLegal t

/-- 44_state_machine section 8: from every state of the invariant, a tick moves only along the cycle READY_BTN_WAIT, READY,
THRUST_BTN_WAIT, THRUST, READY_BTN_WAIT. -/
def Obligations.ReachableCycle : Prop :=
  ∀ (s : State) (w : InputWord) (rest : List TickInput), Safe s → TakesTick s w rest →
    ∃ t, step s = .next t ∧
      ((s.state = 0 ∧ (t.state = 0 ∨ t.state = 1)) ∨ (s.state = 1 ∧ (t.state = 1 ∨ t.state = 2)) ∨
       (s.state = 2 ∧ (t.state = 2 ∨ t.state = 3)) ∨ (s.state = 3 ∧ (t.state = 3 ∨ t.state = 0)))

/-! ### Timing laws, over every sequence of input words -/

/-- 44_state_machine R183 (the spec's own inference from R60 and R182): from the entry of READY_BTN_WAIT, 500 ticks that
feed both filters, one that advances, whatever the button; READY is evaluated from the 502nd on. -/
def Obligations.ReadyWaitTiming : Prop :=
  ∀ (s : State) (ws : List InputWord) (rest : List TickInput), s.state = 0 → s.chg = true → ws.length = 501 →
    s.inputs = pulsesOf ws ++ rest →
    (∀ k, 1 ≤ k → k ≤ 500 → ∃ t, runs k s = .next t ∧ t.state = 0 ∧ t.chg = false ∧ t.dbt0.toNat = 500 - k ∧
      t.fa0 = ((ws.take k).foldl (fun u w => feedBoth w u) s).fa0 ∧
      t.fa1 = ((ws.take k).foldl (fun u w => feedBoth w u) s).fa1 ∧ t.duty = s.duty) ∧
    ∃ t, runs 501 s = .next t ∧ t.state = 1 ∧ t.chg = true ∧ t.dbt0 = 0 ∧ t.inputs = rest ∧ t.duty = s.duty ∧
      t.fa0 = ((ws.take 500).foldl (fun u w => feedBoth w u) s).fa0 ∧
      t.fa1 = ((ws.take 500).foldl (fun u w => feedBoth w u) s).fa1

/-- 44_state_machine R189 (the spec's own inference from R60, R186, R188): from the arm, 500 ticks of THRUST_BTN_WAIT,
whatever the button; the 500th brings DBT1 to 0 and enters THRUST. -/
def Obligations.ThrustWaitTiming : Prop :=
  ∀ (s : State) (w : InputWord) (ws : List InputWord) (rest : List TickInput), s.state = 1 → w.btn = true →
    ws.length = 500 → s.inputs = pulsesOf (w :: ws) ++ rest →
    ∀ k, 1 ≤ k → k ≤ 500 → ∃ t, runs (k + 1) s = .next t ∧ t.dbt1.toNat = 500 - k ∧
      t.dur.toNat = (runDur (getFilter .time s)).toNat - k ∧ t.state = (if k = 500 then 3 else 2)

/-- 44_state_machine R204 (the spec's own inference from R186, R189, R192): an uninterrupted run lasts exactly its duration:
the duty is the armed thrust for D ticks, the duration counts down, and the tick T + D cuts the output off and returns to
READY_BTN_WAIT. -/
def Obligations.UninterruptedRunLength : Prop :=
  ∀ (s : State) (w : InputWord) (ws : List InputWord) (rest : List TickInput), s.state = 1 → w.btn = true →
    let D := (runDur (getFilter .time s)).toNat
    ws.length = D → (∀ k v, ws[k]? = some v → 500 ≤ k → v.btn = false) → s.inputs = pulsesOf (w :: ws) ++ rest →
    (∀ k, k < D → ∃ t, runs (k + 1) s = .next t ∧ t.duty = getFilter .throttle s ∧ t.dur.toNat = D - k) ∧
    ∃ t, runs (D + 1) s = .next t ∧ t.duty = 0 ∧ t.dur = 0 ∧ t.state = 0

/-- 42_ramp_down R155, R156 (the spec's own inference from R151, R152, R167): the length of a ramp from any level, the level
and the duty at each of its ticks, and both from an armed level. -/
def Obligations.RampLengthAndDuty : Prop :=
  ∀ (s : State) (ws : List InputWord) (rest : List TickInput), s.state = 4 → (∀ w ∈ ws, w.btn = false) →
    let L := s.level.toNat
    let k := if L ≤ 32 then 0 else (L + 31) / 32 - 1
    ws.length = k + 1 → s.inputs = pulsesOf ws ++ rest →
    (L - k * 32 ≤ 32 ∧ ∀ j, j < k → 32 < L - j * 32) ∧
    (∀ j, 1 ≤ j → j ≤ k → ∃ t, runs j s = .next t ∧ t.state = 4 ∧ t.level.toNat = L - 32 * j ∧
      t.duty.toNat = (L - 32 * j) / 256 ∧
      ∀ θ, L = 256 * θ → t.duty.toNat = θ - (j + 7) / 8) ∧
    (∃ t, runs (k + 1) s = .next t ∧ t.state = 0 ∧ t.level = 0 ∧ t.duty = 0) ∧
    (∀ θ, 1 ≤ θ → L = 256 * θ → k + 1 = 8 * θ)

/-- 70_reset_and_hazards R255 (the spec's own inference from R183, R186, R189, R194): a permanently held button: from an
entry of READY_BTN_WAIT with the output off, 501 ticks off, the arm and 500 more ticks on, and the stop, which is such an
entry again. -/
def Obligations.HeldButtonPulses : Prop :=
  ∀ (s : State) (ws : List InputWord) (rest : List TickInput), s.state = 0 → s.chg = true → s.duty = 0 →
    ws.length = 1003 → (∀ w ∈ ws, w.btn = true) → s.inputs = pulsesOf ws ++ rest →
    let armed := getFilter .throttle ((ws.take 500).foldl (fun u w => feedBoth w u) s)
    (∀ k, k ≤ 501 → ∃ t, runs k s = .next t ∧ t.duty = 0) ∧
    (∀ k, 502 ≤ k → k ≤ 1002 → ∃ t, runs k s = .next t ∧ t.duty = armed ∧ t.thrust = armed) ∧
    ∃ t, runs 1003 s = .next t ∧ t.duty = 0 ∧ t.state = 0 ∧ t.chg = true ∧ t.inputs = rest

/-- 70_reset_and_hazards R251 (the spec's own inference from R38, R183, R186): after each of the first 501 ticks from reset
the duty is 0, whatever the inputs, and none of those ticks is evaluated in another state than READY_BTN_WAIT, so that no
arm is; the invariants hold at reset. -/
def Obligations.NoDutyBeforeTick502 : Prop :=
  (SumsInRange State.reset ∧ DutyIsTopByte State.reset ∧ IdleIsOff State.reset ∧ TimersInRange State.reset ∧
    ThrustHasTime State.reset ∧ NotThrustDown State.reset ∧ RunHoldsDuty State.reset ∧ StateLegal State.reset) ∧
  ∀ (ws : List InputWord) (n : Nat), n ≤ 501 →
    ∃ t, runs n { State.reset with inputs := pulsesOf ws } = .next t ∧ t.duty = 0 ∧ (n ≤ 500 → t.state = 0)

/-! ### Traces -/

/-- 30_encoding R101: the four pseudo-statements are what they expand to. -/
def Obligations.PseudoStatementsExpand : Prop :=
  ∀ (n : Nat) (thr tim : Option Byte) (rest : Trace),
    traceWords (.idle n thr tim rest) = traceWords (.rep n (.tick (some false) thr tim .done) rest) ∧
    traceWords (.press thr tim rest) = traceWords (.tick (some true) thr tim rest) ∧
    traceWords (.hold n thr tim rest) = traceWords (.rep n (.tick (some true) thr tim .done) rest) ∧
    traceWords (.run n rest) = traceWords (.rep n (.tick (some false) none none .done) rest)

/-- 30_encoding sections 5 and 2: a base statement is its input word, a block is its body again and again, and a loaded
trace is taken pulse by pulse, in order. -/
def Obligations.LoadedTraceIsTakenInOrder : Prop :=
  (∀ (b : Bool) (thr tim : Byte) (rest : Trace),
    traceWords (.tick (some b) thr tim rest) = ⟨b, thr, tim⟩ :: traceWords rest) ∧
  (∀ (n : Nat) (body rest : Trace),
    traceWords (.rep (n + 1) body rest) = traceWords body ++ traceWords (.rep n body rest)) ∧
  (∀ body rest : Trace, traceWords (.rep 0 body rest) = traceWords rest) ∧
  ∀ (b : Bool) (thr tim : Byte) (rest : Trace) (s : State), s.inputs = [] →
    step (loadTrace (.tick (some b) thr tim rest) s) = exec (decode (tickWord s.state ⟨b, thr, tim⟩)) (loadTrace rest s)
end

