-- ==== Sys2Proof/Laws/State.lean ====
section
/-! SUPPORT. One lemma per field and update: what each update of the state writes, and that it leaves every other field as it was. -/

namespace Sys2Proof.Machine

@[simp] theorem writeSum_throttle_fa0 (v : SumWord) (s : State) : (writeSum .throttle v s).fa0 = v := rfl
@[simp] theorem writeSum_throttle_fa1 (v : SumWord) (s : State) : (writeSum .throttle v s).fa1 = s.fa1 := rfl
@[simp] theorem writeSum_throttle_thrust (v : SumWord) (s : State) : (writeSum .throttle v s).thrust = s.thrust := rfl
@[simp] theorem writeSum_throttle_dur (v : SumWord) (s : State) : (writeSum .throttle v s).dur = s.dur := rfl
@[simp] theorem writeSum_throttle_level (v : SumWord) (s : State) : (writeSum .throttle v s).level = s.level := rfl
@[simp] theorem writeSum_throttle_duty (v : SumWord) (s : State) : (writeSum .throttle v s).duty = s.duty := rfl
@[simp] theorem writeSum_throttle_dbt0 (v : SumWord) (s : State) : (writeSum .throttle v s).dbt0 = s.dbt0 := rfl
@[simp] theorem writeSum_throttle_dbt1 (v : SumWord) (s : State) : (writeSum .throttle v s).dbt1 = s.dbt1 := rfl
@[simp] theorem writeSum_throttle_state (v : SumWord) (s : State) : (writeSum .throttle v s).state = s.state := rfl
@[simp] theorem writeSum_throttle_chg (v : SumWord) (s : State) : (writeSum .throttle v s).chg = s.chg := rfl
@[simp] theorem writeSum_throttle_ticks (v : SumWord) (s : State) : (writeSum .throttle v s).ticks = s.ticks := rfl
@[simp] theorem writeSum_throttle_inputs (v : SumWord) (s : State) : (writeSum .throttle v s).inputs = s.inputs := rfl

@[simp] theorem writeSum_time_fa0 (v : SumWord) (s : State) : (writeSum .time v s).fa0 = s.fa0 := rfl
@[simp] theorem writeSum_time_fa1 (v : SumWord) (s : State) : (writeSum .time v s).fa1 = v := rfl
@[simp] theorem writeSum_time_thrust (v : SumWord) (s : State) : (writeSum .time v s).thrust = s.thrust := rfl
@[simp] theorem writeSum_time_dur (v : SumWord) (s : State) : (writeSum .time v s).dur = s.dur := rfl
@[simp] theorem writeSum_time_level (v : SumWord) (s : State) : (writeSum .time v s).level = s.level := rfl
@[simp] theorem writeSum_time_duty (v : SumWord) (s : State) : (writeSum .time v s).duty = s.duty := rfl
@[simp] theorem writeSum_time_dbt0 (v : SumWord) (s : State) : (writeSum .time v s).dbt0 = s.dbt0 := rfl
@[simp] theorem writeSum_time_dbt1 (v : SumWord) (s : State) : (writeSum .time v s).dbt1 = s.dbt1 := rfl
@[simp] theorem writeSum_time_state (v : SumWord) (s : State) : (writeSum .time v s).state = s.state := rfl
@[simp] theorem writeSum_time_chg (v : SumWord) (s : State) : (writeSum .time v s).chg = s.chg := rfl
@[simp] theorem writeSum_time_ticks (v : SumWord) (s : State) : (writeSum .time v s).ticks = s.ticks := rfl
@[simp] theorem writeSum_time_inputs (v : SumWord) (s : State) : (writeSum .time v s).inputs = s.inputs := rfl

@[simp] theorem setDuty_fa0 (d : Byte) (s : State) : (setDuty d s).fa0 = s.fa0 := rfl
@[simp] theorem setDuty_fa1 (d : Byte) (s : State) : (setDuty d s).fa1 = s.fa1 := rfl
@[simp] theorem setDuty_thrust (d : Byte) (s : State) : (setDuty d s).thrust = s.thrust := rfl
@[simp] theorem setDuty_dur (d : Byte) (s : State) : (setDuty d s).dur = s.dur := rfl
@[simp] theorem setDuty_level (d : Byte) (s : State) : (setDuty d s).level = s.level := rfl
@[simp] theorem setDuty_duty (d : Byte) (s : State) : (setDuty d s).duty = d := rfl
@[simp] theorem setDuty_dbt0 (d : Byte) (s : State) : (setDuty d s).dbt0 = s.dbt0 := rfl
@[simp] theorem setDuty_dbt1 (d : Byte) (s : State) : (setDuty d s).dbt1 = s.dbt1 := rfl
@[simp] theorem setDuty_state (d : Byte) (s : State) : (setDuty d s).state = s.state := rfl
@[simp] theorem setDuty_chg (d : Byte) (s : State) : (setDuty d s).chg = s.chg := rfl
@[simp] theorem setDuty_ticks (d : Byte) (s : State) : (setDuty d s).ticks = s.ticks := rfl
@[simp] theorem setDuty_inputs (d : Byte) (s : State) : (setDuty d s).inputs = s.inputs := rfl

@[simp] theorem feedBoth_fa0 (w : InputWord) (s : State) : (feedBoth w s).fa0 = BitVec.ofNat 18 (filterNext s.fa0.toNat w.sThr.toNat) := rfl
@[simp] theorem feedBoth_fa1 (w : InputWord) (s : State) : (feedBoth w s).fa1 = BitVec.ofNat 18 (filterNext s.fa1.toNat w.sTime.toNat) := rfl
@[simp] theorem feedBoth_thrust (w : InputWord) (s : State) : (feedBoth w s).thrust = s.thrust := rfl
@[simp] theorem feedBoth_dur (w : InputWord) (s : State) : (feedBoth w s).dur = s.dur := rfl
@[simp] theorem feedBoth_level (w : InputWord) (s : State) : (feedBoth w s).level = s.level := rfl
@[simp] theorem feedBoth_duty (w : InputWord) (s : State) : (feedBoth w s).duty = s.duty := rfl
@[simp] theorem feedBoth_dbt0 (w : InputWord) (s : State) : (feedBoth w s).dbt0 = s.dbt0 := rfl
@[simp] theorem feedBoth_dbt1 (w : InputWord) (s : State) : (feedBoth w s).dbt1 = s.dbt1 := rfl
@[simp] theorem feedBoth_state (w : InputWord) (s : State) : (feedBoth w s).state = s.state := rfl
@[simp] theorem feedBoth_chg (w : InputWord) (s : State) : (feedBoth w s).chg = s.chg := rfl
@[simp] theorem feedBoth_ticks (w : InputWord) (s : State) : (feedBoth w s).ticks = s.ticks := rfl
@[simp] theorem feedBoth_inputs (w : InputWord) (s : State) : (feedBoth w s).inputs = s.inputs := rfl

@[simp] theorem goto_regs (st : SystemState) (t : Tick) : (goto st t).regs = t.regs := rfl
@[simp] theorem goto_next (st : SystemState) (t : Tick) : (goto st t).next = stateCode st := rfl
@[simp] theorem beginTick_regs (s : State) : (beginTick s).regs = s := rfl
@[simp] theorem beginTick_next (s : State) : (beginTick s).next = s.state := rfl

@[simp] theorem retIdle_fa0 (t : Tick) : (retIdle t).regs.fa0 = t.regs.fa0 := rfl
@[simp] theorem retIdle_fa1 (t : Tick) : (retIdle t).regs.fa1 = t.regs.fa1 := rfl
@[simp] theorem retIdle_thrust (t : Tick) : (retIdle t).regs.thrust = 0 := rfl
@[simp] theorem retIdle_dur (t : Tick) : (retIdle t).regs.dur = 0 := rfl
@[simp] theorem retIdle_level (t : Tick) : (retIdle t).regs.level = 0 := rfl
@[simp] theorem retIdle_duty (t : Tick) : (retIdle t).regs.duty = 0 := rfl
@[simp] theorem retIdle_dbt0 (t : Tick) : (retIdle t).regs.dbt0 = t.regs.dbt0 := rfl
@[simp] theorem retIdle_dbt1 (t : Tick) : (retIdle t).regs.dbt1 = t.regs.dbt1 := rfl
@[simp] theorem retIdle_state (t : Tick) : (retIdle t).regs.state = t.regs.state := rfl
@[simp] theorem retIdle_chg (t : Tick) : (retIdle t).regs.chg = t.regs.chg := rfl
@[simp] theorem retIdle_ticks (t : Tick) : (retIdle t).regs.ticks = t.regs.ticks := rfl
@[simp] theorem retIdle_inputs (t : Tick) : (retIdle t).regs.inputs = t.regs.inputs := rfl
@[simp] theorem retIdle_next (t : Tick) : (retIdle t).next = stateCode .readyBtnWait := rfl

@[simp] theorem rampSubtract_fa0 (t : Tick) : (rampSubtract t).regs.fa0 = t.regs.fa0 := rfl
@[simp] theorem rampSubtract_fa1 (t : Tick) : (rampSubtract t).regs.fa1 = t.regs.fa1 := rfl
@[simp] theorem rampSubtract_thrust (t : Tick) : (rampSubtract t).regs.thrust = t.regs.thrust := rfl
@[simp] theorem rampSubtract_dur (t : Tick) : (rampSubtract t).regs.dur = t.regs.dur := rfl
@[simp] theorem rampSubtract_level (t : Tick) : (rampSubtract t).regs.level = t.regs.level - BitVec.ofNat 16 Constants.rampStep := rfl
@[simp] theorem rampSubtract_duty (t : Tick) : (rampSubtract t).regs.duty = levelDuty (t.regs.level - BitVec.ofNat 16 Constants.rampStep) := rfl
@[simp] theorem rampSubtract_dbt0 (t : Tick) : (rampSubtract t).regs.dbt0 = t.regs.dbt0 := rfl
@[simp] theorem rampSubtract_dbt1 (t : Tick) : (rampSubtract t).regs.dbt1 = t.regs.dbt1 := rfl
@[simp] theorem rampSubtract_state (t : Tick) : (rampSubtract t).regs.state = t.regs.state := rfl
@[simp] theorem rampSubtract_chg (t : Tick) : (rampSubtract t).regs.chg = t.regs.chg := rfl
@[simp] theorem rampSubtract_ticks (t : Tick) : (rampSubtract t).regs.ticks = t.regs.ticks := rfl
@[simp] theorem rampSubtract_inputs (t : Tick) : (rampSubtract t).regs.inputs = t.regs.inputs := rfl
@[simp] theorem rampSubtract_next (t : Tick) : (rampSubtract t).next = t.next := rfl

@[simp] theorem armRun_fa0 (t : Tick) : (armRun t).regs.fa0 = t.regs.fa0 := rfl
@[simp] theorem armRun_fa1 (t : Tick) : (armRun t).regs.fa1 = t.regs.fa1 := rfl
@[simp] theorem armRun_thrust (t : Tick) : (armRun t).regs.thrust = getFilter .throttle t.regs := rfl
@[simp] theorem armRun_dur (t : Tick) : (armRun t).regs.dur = runDur (getFilter .time t.regs) := rfl
@[simp] theorem armRun_level (t : Tick) : (armRun t).regs.level = thrustLevel (getFilter .throttle t.regs) := rfl
@[simp] theorem armRun_duty (t : Tick) : (armRun t).regs.duty = getFilter .throttle t.regs := rfl
@[simp] theorem armRun_dbt0 (t : Tick) : (armRun t).regs.dbt0 = t.regs.dbt0 := rfl
@[simp] theorem armRun_dbt1 (t : Tick) : (armRun t).regs.dbt1 = t.regs.dbt1 := rfl
@[simp] theorem armRun_state (t : Tick) : (armRun t).regs.state = t.regs.state := rfl
@[simp] theorem armRun_chg (t : Tick) : (armRun t).regs.chg = t.regs.chg := rfl
@[simp] theorem armRun_ticks (t : Tick) : (armRun t).regs.ticks = t.regs.ticks := rfl
@[simp] theorem armRun_inputs (t : Tick) : (armRun t).regs.inputs = t.regs.inputs := rfl
@[simp] theorem armRun_next (t : Tick) : (armRun t).next = stateCode .thrustBtnWait := rfl

@[simp] theorem endTick_fa0 (t : Tick) : (endTick t).fa0 = t.regs.fa0 := rfl
@[simp] theorem endTick_fa1 (t : Tick) : (endTick t).fa1 = t.regs.fa1 := rfl
@[simp] theorem endTick_thrust (t : Tick) : (endTick t).thrust = t.regs.thrust := rfl
@[simp] theorem endTick_dur (t : Tick) : (endTick t).dur = t.regs.dur := rfl
@[simp] theorem endTick_level (t : Tick) : (endTick t).level = t.regs.level := rfl
@[simp] theorem endTick_duty (t : Tick) : (endTick t).duty = t.regs.duty := rfl
@[simp] theorem endTick_dbt0 (t : Tick) : (endTick t).dbt0 = t.regs.dbt0 := rfl
@[simp] theorem endTick_dbt1 (t : Tick) : (endTick t).dbt1 = t.regs.dbt1 := rfl
@[simp] theorem endTick_state (t : Tick) : (endTick t).state = t.next := rfl
@[simp] theorem endTick_chg (t : Tick) : (endTick t).chg = chgFlag t.regs.state t.next := rfl
@[simp] theorem endTick_ticks (t : Tick) : (endTick t).ticks = t.regs.ticks + 1 := rfl
@[simp] theorem endTick_inputs (t : Tick) : (endTick t).inputs = t.regs.inputs := rfl

@[simp] theorem resetRegs_fa0 (s : State) : (resetRegs s).fa0 = State.reset.fa0 := rfl
@[simp] theorem resetRegs_fa1 (s : State) : (resetRegs s).fa1 = State.reset.fa1 := rfl
@[simp] theorem resetRegs_thrust (s : State) : (resetRegs s).thrust = State.reset.thrust := rfl
@[simp] theorem resetRegs_dur (s : State) : (resetRegs s).dur = State.reset.dur := rfl
@[simp] theorem resetRegs_level (s : State) : (resetRegs s).level = State.reset.level := rfl
@[simp] theorem resetRegs_duty (s : State) : (resetRegs s).duty = State.reset.duty := rfl
@[simp] theorem resetRegs_dbt0 (s : State) : (resetRegs s).dbt0 = State.reset.dbt0 := rfl
@[simp] theorem resetRegs_dbt1 (s : State) : (resetRegs s).dbt1 = State.reset.dbt1 := rfl
@[simp] theorem resetRegs_state (s : State) : (resetRegs s).state = State.reset.state := rfl
@[simp] theorem resetRegs_chg (s : State) : (resetRegs s).chg = State.reset.chg := rfl
@[simp] theorem resetRegs_ticks (s : State) : (resetRegs s).ticks = State.reset.ticks := rfl
@[simp] theorem resetRegs_inputs (s : State) : (resetRegs s).inputs = s.inputs := rfl

@[simp] theorem placeTickWord_fa0 (s : State) (t : TickBits) : (placeTickWord s t).fa0 = s.fa0 := rfl
@[simp] theorem placeTickWord_fa1 (s : State) (t : TickBits) : (placeTickWord s t).fa1 = s.fa1 := rfl
@[simp] theorem placeTickWord_thrust (s : State) (t : TickBits) : (placeTickWord s t).thrust = s.thrust := rfl
@[simp] theorem placeTickWord_dur (s : State) (t : TickBits) : (placeTickWord s t).dur = s.dur := rfl
@[simp] theorem placeTickWord_level (s : State) (t : TickBits) : (placeTickWord s t).level = s.level := rfl
@[simp] theorem placeTickWord_duty (s : State) (t : TickBits) : (placeTickWord s t).duty = s.duty := rfl
@[simp] theorem placeTickWord_dbt0 (s : State) (t : TickBits) : (placeTickWord s t).dbt0 = s.dbt0 := rfl
@[simp] theorem placeTickWord_dbt1 (s : State) (t : TickBits) : (placeTickWord s t).dbt1 = s.dbt1 := rfl
@[simp] theorem placeTickWord_state (s : State) (t : TickBits) : (placeTickWord s t).state = t.extractLsb' 17 3 := rfl
@[simp] theorem placeTickWord_chg (s : State) (t : TickBits) : (placeTickWord s t).chg = s.chg := rfl
@[simp] theorem placeTickWord_ticks (s : State) (t : TickBits) : (placeTickWord s t).ticks = s.ticks := rfl
@[simp] theorem placeTickWord_inputs (s : State) (t : TickBits) : (placeTickWord s t).inputs = ⟨false, inputWordOf (t.extractLsb' 0 17)⟩ :: s.inputs := rfl

end Sys2Proof.Machine
end

