-- ==== Sys2Proof/Laws/Ops.lean ====
section
/-! SUPPORT. What each primitive of the block does, once, in numbers: the lemmas to cite in place of unfolding a primitive. -/

namespace Sys2Proof.Machine

@[simp] theorem stateCode_readyBtnWait : stateCode .readyBtnWait = 0#3 := rfl
@[simp] theorem stateCode_ready : stateCode .ready = 1#3 := rfl
@[simp] theorem stateCode_thrustBtnWait : stateCode .thrustBtnWait = 2#3 := rfl
@[simp] theorem stateCode_thrust : stateCode .thrust = 3#3 := rfl
@[simp] theorem stateCode_thrustDown : stateCode .thrustDown = 4#3 := rfl

theorem rampStep_const : Constants.rampStep = 32 := by decide

/-- The recurrence of a filter with division in place of the shift (40_filter R121). -/
theorem filterNext_eq (sum s : Nat) : filterNext sum s = sum + s - sum / 1024 := by
  simp [filterNext, Constants.shift, Nat.shiftRight_eq_div_pow]

/-- A feed of any 18-bit sum with any 8-bit sample fits 18 bits, so narrowing it loses nothing (40_filter R121). -/
theorem filterNext_lt (sum : SumWord) (smp : Byte) : filterNext sum.toNat smp.toNat < 2 ^ 18 := by
  have h := sum.isLt
  have h' := smp.isLt
  rw [filterNext_eq]
  omega

/-- The new sum of a feed, as a number (40_filter R121). -/
theorem filterNext_toNat (sum : SumWord) (smp : Byte) :
    (BitVec.ofNat 18 (filterNext sum.toNat smp.toNat)).toNat = sum.toNat + smp.toNat - sum.toNat / 1024 := by
  rw [BitVec.toNat_ofNat, Nat.mod_eq_of_lt (filterNext_lt sum smp), filterNext_eq]

/-- The output of a filter, as a number (40_filter R122). -/
theorem filterOut_toNat (sum : SumWord) : (filterOut sum).toNat = sum.toNat / 1024 := by
  have h := sum.isLt
  simp only [filterOut, Constants.shift, BitVec.toNat_ofNat, Nat.shiftRight_eq_div_pow]
  omega

/-- A run's duration, as a number (41_run_duration R141). -/
theorem runDur_toNat (t : Byte) : (runDur t).toNat = 15000 + t.toNat * 512 := by
  have h := t.isLt
  simp only [runDur, Constants.durBase, Constants.durShift, BitVec.toNat_ofNat, Nat.shiftLeft_eq]
  omega

/-- The saturating decrement, as a number (00_scope R12). -/
theorem satdec_toNat (a : DurWord) : (satdec a).toNat = a.toNat - 1 := by
  have h := a.isLt
  unfold satdec
  split
  · next h0 => subst h0; rfl
  · next h0 =>
    have : a.toNat ≠ 0 := fun h1 => h0 (BitVec.eq_of_toNat_eq (by simpa using h1))
    simp only [BitVec.ofNat_eq_ofNat, BitVec.toNat_sub, BitVec.toNat_ofNat]
    omega

/-- The saturating decrement reaches 0 exactly from 0 and 1. -/
theorem satdec_eq_zero (a : DurWord) : satdec a = 0 ↔ a.toNat ≤ 1 := by
  rw [← BitVec.toNat_inj, satdec_toNat]
  simp only [BitVec.ofNat_eq_ofNat, BitVec.toNat_ofNat]
  omega

/-- The duty of a level, as a number (10_state R27). -/
theorem levelDuty_toNat (l : LevelWord) : (levelDuty l).toNat = l.toNat / 256 := by
  have h := l.isLt
  simp only [levelDuty, BitVec.toNat_ofNat, Nat.shiftRight_eq_div_pow]
  omega

/-- The level of a thrust, as a number (43_output_stage R169). -/
theorem thrustLevel_toNat (d : Byte) : (thrustLevel d).toNat = d.toNat * 256 := by
  have h := d.isLt
  simp only [thrustLevel, BitVec.toNat_ofNat, Nat.shiftLeft_eq]
  omega

/-- A ramp step's subtraction, as a number, where it is taken (42_ramp_down R151). -/
theorem level_sub_toNat (l : LevelWord) (h : 32 < l.toNat) :
    (l - BitVec.ofNat 16 Constants.rampStep).toNat = l.toNat - 32 := by
  have h' := l.isLt
  rw [rampStep_const, BitVec.toNat_sub, BitVec.toNat_ofNat]
  omega

/-- The comparison of a ramp step (42_ramp_down R151). -/
theorem rampDone_iff (s : State) : rampDone s = true ↔ s.level.toNat ≤ 32 := by
  simp [rampDone, rampStep_const]

/-- A ramp step compares first (42_ramp_down R151, R153). -/
theorem rampStep_eq (t : Tick) : rampStep t = if t.regs.level.toNat ≤ 32 then retIdle t else rampSubtract t := by
  have h : rampStep t = rampTestFirst t := rfl
  rw [h, rampTestFirst]
  by_cases hd : t.regs.level.toNat ≤ 32
  · rw [if_pos ((rampDone_iff _).2 hd), if_pos hd]
  · rw [if_neg (fun hc => hd ((rampDone_iff _).1 hc)), if_neg hd]

/-- The timer after the entry action, as a number (44_state_machine R181). -/
theorem entryLoad_toNat (chg : Bool) (d : TimerWord) : (entryLoad chg d).toNat = if chg then 500 else d.toNat := by
  cases chg <;> rfl

/-- The timer's test against 0, as a number. -/
theorem entryLoad_eq_zero (chg : Bool) (d : TimerWord) : entryLoad chg d = 0 ↔ (if chg then 500 else d.toNat) = 0 := by
  rw [← BitVec.toNat_inj, entryLoad_toNat]
  simp

/-- One tick of a running timer, as a number. -/
theorem timer_pred_toNat (d : TimerWord) (h : d ≠ 0) : (d - 1).toNat = d.toNat - 1 := by
  have h' := d.isLt
  have : d.toNat ≠ 0 := fun h1 => h (BitVec.eq_of_toNat_eq (by simpa using h1))
  simp only [BitVec.ofNat_eq_ofNat, BitVec.toNat_sub, BitVec.toNat_ofNat]
  omega

@[simp] theorem chgFlag_eq (old next : StateCode) : chgFlag old next = decide (next ≠ old) := by
  by_cases h : next = old <;> simp [chgFlag, h]

/-- A tick operation's body in its frame always answers a next state (20_memory R60, 60_exceptions R220). -/
theorem runTick_eq (body : Tick → Tick) (s : State) : runTick body s = .next (endTick (body (beginTick s))) := rfl

end Sys2Proof.Machine
end

