-- ==== Sys2Proof/Laws/Bodies.lean ====
section
/-! SUPPORT. The paths of the operations that branch on registers (30_encoding R96), each path once: what the body is where its
condition holds. -/

namespace Sys2Proof.Machine

/-- RBW.TICK where the timer, after the entry action, is 0 (44_state_machine R182). -/
theorem readyWaitBody_advance (w : InputWord) (t : Tick) (h : entryLoad t.regs.chg t.regs.dbt0 = 0) :
    readyWaitBody w t = goto .ready { t with regs := { t.regs with dbt0 := entryLoad t.regs.chg t.regs.dbt0 } } :=
  if_pos h

/-- RBW.TICK where the timer, after the entry action, runs (44_state_machine R182). -/
theorem readyWaitBody_running (w : InputWord) (t : Tick) (h : entryLoad t.regs.chg t.regs.dbt0 ≠ 0) :
    readyWaitBody w t =
      { t with regs := feedBoth w { t.regs with dbt0 := entryLoad t.regs.chg t.regs.dbt0 - 1 } } :=
  if_neg h

/-- TBW.TICK where the timer, after the entry action, is 0 (44_state_machine R188, the outer else). -/
theorem thrustWaitBody_leave (t : Tick) (h : entryLoad t.regs.chg t.regs.dbt1 = 0) :
    thrustWaitBody t = goto .thrust { t with regs := { t.regs with dbt1 := entryLoad t.regs.chg t.regs.dbt1 } } :=
  if_pos h

/-- TBW.TICK where the duration runs out (44_state_machine R188, R190). -/
theorem thrustWaitBody_exhausted (t : Tick) (h : entryLoad t.regs.chg t.regs.dbt1 ≠ 0) (hd : satdec t.regs.dur = 0) :
    thrustWaitBody t = goto .thrustDown { t with regs := { t.regs with
      dbt1 := entryLoad t.regs.chg t.regs.dbt1 - 1, dur := satdec t.regs.dur } } :=
  (if_neg h).trans (if_pos hd)

/-- TBW.TICK where the wait elapses with time left (44_state_machine R188). -/
theorem thrustWaitBody_elapsed (t : Tick) (h : entryLoad t.regs.chg t.regs.dbt1 ≠ 0) (hd : satdec t.regs.dur ≠ 0)
    (h1 : entryLoad t.regs.chg t.regs.dbt1 - 1 = 0) :
    thrustWaitBody t = goto .thrust { t with regs := { t.regs with
      dbt1 := entryLoad t.regs.chg t.regs.dbt1 - 1, dur := satdec t.regs.dur } } :=
  (if_neg h).trans ((if_neg hd).trans (if_pos h1))

/-- TBW.TICK where the wait goes on (44_state_machine R188). -/
theorem thrustWaitBody_running (t : Tick) (h : entryLoad t.regs.chg t.regs.dbt1 ≠ 0) (hd : satdec t.regs.dur ≠ 0)
    (h1 : entryLoad t.regs.chg t.regs.dbt1 - 1 ≠ 0) :
    thrustWaitBody t = { t with regs := { t.regs with
      dbt1 := entryLoad t.regs.chg t.regs.dbt1 - 1, dur := satdec t.regs.dur } } :=
  (if_neg h).trans ((if_neg hd).trans (if_neg h1))

/-- THR.RUN where the duration runs out (44_state_machine R192). -/
theorem thrustRunBody_expired (t : Tick) (h : satdec t.regs.dur = 0) :
    thrustRunBody t = retIdle { t with regs := { t.regs with dur := satdec t.regs.dur } } :=
  if_pos h

/-- THR.RUN where the run goes on (44_state_machine R192). -/
theorem thrustRunBody_running (t : Tick) (h : satdec t.regs.dur ≠ 0) :
    thrustRunBody t = { t with regs := { t.regs with dur := satdec t.regs.dur } } :=
  if_neg h

/-- A ramp step where the level is depleted (42_ramp_down R151). -/
theorem rampStep_done (t : Tick) (h : t.regs.level.toNat ≤ 32) : rampStep t = retIdle t := by
  rw [rampStep_eq, if_pos h]

/-- A ramp step where it is not (42_ramp_down R151). -/
theorem rampStep_running (t : Tick) (h : 32 < t.regs.level.toNat) : rampStep t = rampSubtract t := by
  rw [rampStep_eq, if_neg (by omega)]

end Sys2Proof.Machine
end

