-- ==== Sys2Proof/Laws/Encoding.lean ====
section
/-! SUPPORT. The bits of a tick word: its fields, and what a mask of the opcode map keeps (30_encoding R91, R94). -/

namespace Sys2Proof

theorem tickWord_st (st : StateCode) (w : InputWord) : (tickWord st w).extractLsb' 17 3 = st := by
  apply BitVec.eq_of_getLsbD_eq
  intro i hi
  simp only [tickWord, BitVec.getLsbD_extractLsb', BitVec.getLsbD_append]
  simp [hi]

theorem tickWord_btn (st : StateCode) (w : InputWord) : (tickWord st w).getLsbD 16 = w.btn := by
  simp only [tickWord, inputBits, BitVec.getLsbD_append]
  cases w.btn <;> rfl

theorem tickWord_thr (st : StateCode) (w : InputWord) : (tickWord st w).extractLsb' 8 8 = w.sThr := by
  apply BitVec.eq_of_getLsbD_eq
  intro i hi
  simp only [tickWord, inputBits, BitVec.getLsbD_extractLsb', BitVec.getLsbD_append]
  simp [hi, show 8 + i < 17 by omega]

theorem tickWord_tim (st : StateCode) (w : InputWord) : (tickWord st w).extractLsb' 0 8 = w.sTime := by
  apply BitVec.eq_of_getLsbD_eq
  intro i hi
  simp only [tickWord, inputBits, BitVec.getLsbD_extractLsb', BitVec.getLsbD_append]
  simp [hi, show i < 17 by omega]

/-- The fields of an input word's number (30_encoding R92). -/
theorem inputWordOf_inputBits (w : InputWord) : inputWordOf (inputBits w) = w := by
  obtain ⟨b, x, y⟩ := w
  unfold inputWordOf
  congr
  · simp only [inputBits, BitVec.getLsbD_append]
    cases b <;> rfl
  · apply BitVec.eq_of_getLsbD_eq
    intro i hi
    simp only [inputBits, BitVec.getLsbD_extractLsb', BitVec.getLsbD_append]
    simp [hi]
  · apply BitVec.eq_of_getLsbD_eq
    intro i hi
    simp only [inputBits, BitVec.getLsbD_extractLsb', BitVec.getLsbD_append]
    simp [hi]

/-- The low bit of the ST field (30_encoding R91). -/
theorem tickWord_low (st : StateCode) (w : InputWord) : (tickWord st w).getLsbD 17 = st.getLsbD 0 := by
  simp only [tickWord, BitVec.getLsbD_append]
  simp

/-- Every word is the tick word of its fields (30_encoding R91). -/
theorem tickWord_of_fields (t : TickBits) :
    tickWord (t.extractLsb' 17 3) ⟨t.getLsbD 16, t.extractLsb' 8 8, t.extractLsb' 0 8⟩ = t := by
  apply BitVec.eq_of_getLsbD_eq
  intro i hi
  simp only [tickWord, inputBits, BitVec.getLsbD_append, BitVec.getLsbD_extractLsb']
  interval_cases i <;> simp

/-- Decoding from the fields of a tick word (30_encoding R94, R95, R98). -/
theorem decode_tickWord (st : StateCode) (w : InputWord) :
    decode (tickWord st w) =
      if st = 0 then .rbwTick w.btn w.sThr w.sTime
      else if st = 1 then (if w.btn then .rdyArm w.sThr w.sTime else .rdyFeed w.sThr w.sTime)
      else if st = 2 then .tbwTick w.btn w.sThr w.sTime
      else if st = 3 then (if w.btn then .thrStop w.sThr w.sTime else .thrRun w.sThr w.sTime)
      else if st = 4 then (if w.btn then .tdnStop w.sThr w.sTime else .tdnRamp w.sThr w.sTime)
      else if st = 5 then .reservedSt5 w.btn w.sThr w.sTime
      else .reservedSt67 (st.getLsbD 0) w.btn w.sThr w.sTime := by
  simp only [decode, tickWord_st, tickWord_btn, tickWord_thr, tickWord_tim, tickWord_low]

/-- The five legal state codes and the three reserved ones (30_encoding R94, R98). -/
theorem stateCode_cases (st : StateCode) :
    st = 0 ∨ st = 1 ∨ st = 2 ∨ st = 3 ∨ st = 4 ∨ st = 5 ∨ st = 6 ∨ st = 7 := by
  revert st
  decide

/-- The mask 0xE0000 keeps the ST field. -/
theorem mask_st (t : TickBits) : t &&& 0xE0000#20 = t.extractLsb' 17 3 ++ 0#17 := by
  apply BitVec.eq_of_getLsbD_eq
  intro i hi
  rw [BitVec.getLsbD_and, BitVec.getLsbD_append, BitVec.getLsbD_extractLsb']
  interval_cases i <;> simp

/-- The mask 0xF0000 keeps the ST field and B. -/
theorem mask_st_btn (t : TickBits) : t &&& 0xF0000#20 = t.extractLsb' 17 3 ++ (BitVec.ofBool (t.getLsbD 16) ++ 0#16) := by
  apply BitVec.eq_of_getLsbD_eq
  intro i hi
  rw [BitVec.getLsbD_and, BitVec.getLsbD_append, BitVec.getLsbD_extractLsb', BitVec.getLsbD_append]
  interval_cases i <;> simp

/-- The mask 0xC0000 keeps the upper two bits of the ST field. -/
theorem mask_st_high (t : TickBits) : t &&& 0xC0000#20 = (t.extractLsb' 17 3 &&& 6#3) ++ 0#17 := by
  apply BitVec.eq_of_getLsbD_eq
  intro i hi
  rw [BitVec.getLsbD_and, BitVec.getLsbD_append, BitVec.getLsbD_and, BitVec.getLsbD_extractLsb']
  interval_cases i <;> simp

/-- Which rows a tick word selects depends on its ST field and its B bit alone (30_encoding R94, R95). -/
theorem selectedRows_eq (t : TickBits) :
    selectedRows t = selectedRows (tickWord (t.extractLsb' 17 3) ⟨t.getLsbD 16, 0, 0⟩) := by
  simp only [selectedRows, opcodeMap, List.filter, BitVec.ofNat_eq_ofNat, mask_st, mask_st_btn, mask_st_high,
    tickWord_st, tickWord_btn]

end Sys2Proof
end

