-- ==== Sys2Proof/Laws/PerInstr.lean ====
section
/-! SUPPORT. The family `SelectsItsRow`: the tick word that encodes an instruction selects exactly one row of the opcode map,
its own (30_encoding R94, R98). One lemma per constructor. -/

namespace Sys2Proof.Laws.SelectsItsRow

/-- The encoding of `i` selects exactly one row, the one with the mnemonic of `i`. -/
def Statement (i : Instr) : Prop := (selectedRows (encode i)).map OpcodeRow.mnemonic = [mnemonic i]

/-- The rows a tick word selects, from its fields. -/
theorem rows_of_fields (st : StateCode) (w : InputWord) :
    selectedRows (tickWord st w) = selectedRows (tickWord st ⟨w.btn, 0, 0⟩) := by
  rw [selectedRows_eq, tickWord_st, tickWord_btn]

theorem rbwTick (btn : Bool) (thr tim : Byte) : Statement (.rbwTick btn thr tim) := by
  unfold Statement encode
  rw [rows_of_fields]
  show (selectedRows (tickWord 0 ⟨btn, 0, 0⟩)).map OpcodeRow.mnemonic = ["RBW.TICK"]
  cases btn <;> decide

theorem rdyFeed (thr tim : Byte) : Statement (.rdyFeed thr tim) := by
  unfold Statement encode
  rw [rows_of_fields]
  show (selectedRows (tickWord 1 ⟨false, 0, 0⟩)).map OpcodeRow.mnemonic = ["RDY.FEED"]
  decide

theorem rdyArm (thr tim : Byte) : Statement (.rdyArm thr tim) := by
  unfold Statement encode
  rw [rows_of_fields]
  show (selectedRows (tickWord 1 ⟨true, 0, 0⟩)).map OpcodeRow.mnemonic = ["RDY.ARM"]
  decide

theorem tbwTick (btn : Bool) (thr tim : Byte) : Statement (.tbwTick btn thr tim) := by
  unfold Statement encode
  rw [rows_of_fields]
  show (selectedRows (tickWord 2 ⟨btn, 0, 0⟩)).map OpcodeRow.mnemonic = ["TBW.TICK"]
  cases btn <;> decide

theorem thrRun (thr tim : Byte) : Statement (.thrRun thr tim) := by
  unfold Statement encode
  rw [rows_of_fields]
  show (selectedRows (tickWord 3 ⟨false, 0, 0⟩)).map OpcodeRow.mnemonic = ["THR.RUN"]
  decide

theorem thrStop (thr tim : Byte) : Statement (.thrStop thr tim) := by
  unfold Statement encode
  rw [rows_of_fields]
  show (selectedRows (tickWord 3 ⟨true, 0, 0⟩)).map OpcodeRow.mnemonic = ["THR.STOP"]
  decide

theorem tdnRamp (thr tim : Byte) : Statement (.tdnRamp thr tim) := by
  unfold Statement encode
  rw [rows_of_fields]
  show (selectedRows (tickWord 4 ⟨false, 0, 0⟩)).map OpcodeRow.mnemonic = ["TDN.RAMP"]
  decide

theorem tdnStop (thr tim : Byte) : Statement (.tdnStop thr tim) := by
  unfold Statement encode
  rw [rows_of_fields]
  show (selectedRows (tickWord 4 ⟨true, 0, 0⟩)).map OpcodeRow.mnemonic = ["TDN.STOP"]
  decide

theorem reservedSt5 (btn : Bool) (thr tim : Byte) : Statement (.reservedSt5 btn thr tim) := by
  unfold Statement encode
  rw [rows_of_fields]
  show (selectedRows (tickWord 5 ⟨btn, 0, 0⟩)).map OpcodeRow.mnemonic = ["RESERVED.ST5"]
  cases btn <;> decide

theorem reservedSt67 (low btn : Bool) (thr tim : Byte) : Statement (.reservedSt67 low btn thr tim) := by
  unfold Statement encode
  rw [rows_of_fields]
  show (selectedRows (tickWord (3#2 ++ BitVec.ofBool low) ⟨btn, 0, 0⟩)).map OpcodeRow.mnemonic = ["RESERVED.ST6_7"]
  cases low <;> cases btn <;> decide

end Sys2Proof.Laws.SelectsItsRow
end

