-- ==== Sys2Proof/Laws/Step.lean ====
section
/-! SUPPORT. What a step can do, once: the cases of a pulse, and a run taken apart step by step. -/

namespace Sys2Proof.Machine

/-- The cases of a step: no pulse, RESET, or the tick operation of the pulse's tick word (20_memory R60, R61, R67). -/
theorem step_cases (s : State) :
    (s.inputs = [] ∧ step s = .next s) ∨
    (∃ w rest, s.inputs = ⟨true, w⟩ :: rest ∧ step s = .next (resetRegs { s with inputs := rest })) ∨
    (∃ w rest, s.inputs = ⟨false, w⟩ :: rest ∧ step s = exec (decode (tickWord s.state w)) { s with inputs := rest }) := by
  unfold step takePulse
  split
  · next h => exact .inl ⟨h, rfl⟩
  · next p rest h =>
    obtain ⟨rst, w⟩ := p
    cases rst
    · exact .inr (.inr ⟨w, rest, h, rfl⟩)
    · exact .inr (.inl ⟨w, rest, h, rfl⟩)

/-- The first step of a run of any machine, where it answers a next state. -/
theorem run_succ_next (M : Host.Core) (n : Nat) (s t : M.State) (h : M.step s = .next t) :
    M.run (n + 1) s = M.run n t := by
  simp only [Host.Core.run, h]

/-- The first step of a run of any machine, where it is refused. -/
theorem run_succ_refused (M : Host.Core) (n : Nat) (s : M.State) (r : M.Refusal) (h : M.step s = .refused r) :
    M.run (n + 1) s = .refused r := by
  simp only [Host.Core.run, h]

@[simp] theorem runs_zero (s : State) : runs 0 s = .next s := rfl

/-- The first step of a run. -/
theorem runs_succ (n : Nat) (s t : State) (h : step s = .next t) : runs (n + 1) s = runs n t :=
  run_succ_next Sys2Proof.core n s t h

/-- A run of `m + n` steps is a run of `n` steps from where a run of `m` steps ends. -/
theorem runs_add (m n : Nat) (s t : State) (h : runs m s = .next t) : runs (m + n) s = runs n t := by
  induction m generalizing s with
  | zero =>
    rw [runs_zero] at h
    injection h with h
    rw [Nat.zero_add, h]
  | succ m ih =>
    cases hs : step s with
    | next u =>
      rw [runs_succ _ _ _ hs] at h
      rw [Nat.succ_add, runs_succ _ _ _ hs, ih _ h]
    | fault r => exact nomatch r
    | refused r =>
      have : runs (m + 1) s = .refused r := run_succ_refused Sys2Proof.core m s r hs
      rw [this] at h
      cases h

/-- Induction along a run: what holds at its start and is carried by each of its steps holds after each of them. -/
theorem runs_induction (P : Nat → State → Prop) (s : State) (n : Nat) (h0 : P 0 s)
    (hs : ∀ k u, k < n → P k u → ∃ t, step u = .next t ∧ P (k + 1) t) :
    ∀ k, k ≤ n → ∃ t, runs k s = .next t ∧ P k t := by
  intro k
  induction k with
  | zero => exact fun _ => ⟨s, rfl, h0⟩
  | succ k ih =>
    intro hk
    obtain ⟨u, h1, h2⟩ := ih (by omega)
    obtain ⟨t, h3, h4⟩ := hs k u (by omega) h2
    exact ⟨t, by rw [runs_add k 1 s u h1, runs_succ 0 u t h3, runs_zero], h4⟩

/-- The pulse that a run over a list of input words takes next. -/
theorem pulsesOf_drop (ws : List InputWord) (k : Nat) (hk : k < ws.length) (rest : List TickInput) :
    pulsesOf (ws.drop k) ++ rest = ⟨false, ws[k]⟩ :: (pulsesOf (ws.drop (k + 1)) ++ rest) := by
  rw [List.drop_eq_getElem_cons hk]
  rfl

end Sys2Proof.Machine
end

