-- ==== Sys2Proof/Tests/Slice0.lean ====
section
/-! SUPPORT. The model's own tests: expected results are those of spec/95_test_vectors.md (T01 to T38, the decode vectors, the
primitives' tables) and of the spec's encodings written out bit by bit; then one named state for every statement with
hypotheses. -/

namespace Sys2Proof.Tests

open Sys2Proof Sys2Proof.Machine

/-! ### Helpers -/

/-- A state with the registers the vectors give, the others 0 and TICKS 1000 (95_test_vectors section 4). -/
def base (st : StateCode) (chg : Bool) : State := { State.reset with state := st, chg := chg, ticks := 1000 }

/-- A run's registers at duty `d` with `dur` ticks left. -/
def inRun (st : StateCode) (chg : Bool) (d : Byte) (dur : DurWord) (dbt1 : TimerWord) : State :=
  { base st chg with thrust := d, duty := d, level := thrustLevel d, dur := dur, dbt1 := dbt1 }

/-- A state of THRUST_DOWN at a level. -/
def inRamp (chg : Bool) (level : LevelWord) : State :=
  { base 4 chg with thrust := 128, level := level, duty := levelDuty level }

def nextOf : Host.Outcome State Fault Refusal → Option State
  | .next s => some s
  | .fault _ => none
  | .refused _ => none

def refusalOf : Host.Outcome State Fault Refusal → Option Refusal
  | .next _ => none
  | .fault _ => none
  | .refused r => some r

/-- `s` about to take a pulse with these levels, RST not asserted. -/
def withPulse (s : State) (btn : Bool) (thr tim : Byte) : State := { s with inputs := [⟨false, ⟨btn, thr, tim⟩⟩] }

/-- One tick from `s`. -/
def tickOf (s : State) (btn : Bool) (thr tim : Byte) : Option State := nextOf (step (withPulse s btn thr tim))

/-- STATE, CHG, TICKS. -/
def control (s : State) : StateCode × Bool × TickCount := (s.state, s.chg, s.ticks)

/-- Both sums and both timers. -/
def filters (s : State) : SumWord × SumWord × TimerWord × TimerWord := (s.fa0, s.fa1, s.dbt0, s.dbt1)

/-- THRUST, DUR, LEVEL, DUTY. -/
def output (s : State) : Byte × DurWord × LevelWord × Byte := (s.thrust, s.dur, s.level, s.duty)

/-! ### Well-formedness: the one check refuses a reserved word -/

theorem test_wellFormed_refuses_st5 : ¬ (Instr.reservedSt5 false 0 0).WellFormed := by decide
theorem test_wellFormed_refuses_st6 : ¬ (Instr.reservedSt67 false true 1 2).WellFormed := by decide
theorem test_wellFormed_refuses_st7 : ¬ (Instr.reservedSt67 true true 1 2).WellFormed := by decide
theorem test_wellFormed_takes_operation : (Instr.tdnStop 255 255).WellFormed := by decide

/-! ### Decoding: words written out bit by bit, ST B THR TIM (30_encoding R91, R94, R98) -/

theorem test_decode_rbw_tick : decode 0b000_1_10000000_01100011 = .rbwTick true 128 99 := by decide
theorem test_decode_rdy_feed : decode 0b001_0_10000001_11111111 = .rdyFeed 129 255 := by decide
theorem test_decode_rdy_arm : decode 0b001_1_00000111_00001001 = .rdyArm 7 9 := by decide
theorem test_decode_tbw_tick : decode 0b010_1_00000001_00000010 = .tbwTick true 1 2 := by decide
theorem test_decode_thr_run : decode 0b011_0_00000011_00000100 = .thrRun 3 4 := by decide
theorem test_decode_thr_stop : decode 0b011_1_11111111_11111111 = .thrStop 255 255 := by decide
theorem test_decode_tdn_ramp : decode 0b100_0_00000000_00000001 = .tdnRamp 0 1 := by decide
theorem test_decode_tdn_stop : decode 0b100_1_00001001_00001001 = .tdnStop 9 9 := by decide
theorem test_decode_reserved_st5 : decode 0b101_0_00000001_00000010 = .reservedSt5 false 1 2 := by decide
theorem test_decode_reserved_st6 : decode 0b110_1_00000001_00000010 = .reservedSt67 false true 1 2 := by decide
theorem test_decode_reserved_st7 : decode 0b111_0_00000001_00000010 = .reservedSt67 true false 1 2 := by decide
theorem test_decode_too_wide :
    (match decodeNumber 0x100000 with | .ok _ => none | .error e => some e) = some DecodeError.tooWide := by decide
theorem test_encode_rdy_arm : encode (.rdyArm 7 9) = 0x30709 := by decide
theorem test_encode_thr_stop : encode (.thrStop 255 255) = 0x7FFFF := by decide
theorem test_per_instr_family_used : Laws.SelectsItsRow.Statement (.rdyArm 7 9) := Laws.SelectsItsRow.rdyArm 7 9

/-! ### The primitives (95_test_vectors section 3) -/

theorem test_feed_negative_step : filterNext 261120 0 = 260865 := by decide
theorem test_feed_fraction_rests : filterNext 1023 0 = 1023 := by decide
theorem test_get_truncates : filterOut 132095 = 128 := by decide
theorem test_runDur_max : runDur 255 = 145560 := by decide
theorem test_runDur_98 : runDur 98 = 65176 := by decide
theorem test_satdec_zero : satdec 0 = 0 := by decide
theorem test_nominal_run : Constants.nominalMs (runDur 255).toNat = 145560 := by decide

/-! ### The tick operations (95_test_vectors section 4) -/

/-- T02: the tick that brings DBT0 to 0 still feeds and does not advance; the button is ignored. -/
theorem test_T02_rbw_last_feed :
    (tickOf { base 0 false with dbt0 := 1, fa0 := 50774 } true 128 0).map (fun s => (control s, filters s)) =
      some ((0, false, 1001), (50853, 0, 0, 0)) := by decide

/-- T05: the entry tick reloads a stale timer, decrements it and feeds. -/
theorem test_T05_rbw_entry :
    (tickOf { base 0 true with dbt0 := 37, fa0 := 1024, fa1 := 1023 } false 0 0).map (fun s => (control s, filters s)) =
      some ((0, false, 1001), (1023, 1023, 499, 0)) := by decide

/-- T07: both channels are fed, each from its own sample. -/
theorem test_T07_rdy_feed :
    (tickOf { base 1 false with fa0 := 131072 } false 129 255).map (fun s => (control s, filters s)) =
      some ((1, false, 1001), (131073, 255, 0, 0)) := by decide

/-- T38: TICKS wraps. -/
theorem test_T38_ticks_wrap :
    (tickOf { base 1 false with ticks := 4294967295 } false 0 0).map control = some (1, false, 0) := by decide

/-- T10: the arm of the source document's scenario; the samples are ignored. -/
theorem test_T10_rdy_arm :
    (tickOf { base 1 false with fa0 := 131072 } true 7 9).map (fun s => (s.state, output s, s.fa0)) =
      some (2, (128, 15000, 0x8000, 128), 131072) := by decide

/-- T12: the greatest arm. -/
theorem test_T12_rdy_arm_max :
    (tickOf { base 1 false with fa0 := 261120, fa1 := 261120 } true 0 0).map output =
      some (255, 145560, 0xFF00, 255) := by decide

/-- T17: the transition to THRUST in the tick that brings DBT1 to 0. -/
theorem test_T17_tbw_elapsed :
    (tickOf (inRun 2 false 128 14501 1) false 0 0).map (fun s => (control s, s.dur, s.dbt1)) =
      some ((3, true, 1001), 14500, 0) := by decide

/-- T19: the duration wins over the timer. -/
theorem test_T19_tbw_exhausted :
    (tickOf (inRun 2 false 128 1 1) false 0 0).map (fun s => (s.state, s.dur, s.level, s.duty, s.dbt1)) =
      some (4, 0, 0x8000, 128, 0) := by decide

/-- T23: a run goes on. -/
theorem test_T23_thr_run :
    (tickOf (inRun 3 true 128 14500 0) false 3 4).map (fun s => (control s, output s)) =
      some ((3, false, 1001), (128, 14499, 0x8000, 128)) := by decide

/-- T24: expiry is a hard cut-off. -/
theorem test_T24_thr_expiry :
    (tickOf (inRun 3 false 128 1 0) false 0 0).map (fun s => (control s, output s)) =
      some ((0, true, 1001), (0, 0, 0, 0)) := by decide

/-- T26: the emergency stop of a run. -/
theorem test_T26_thr_stop :
    (tickOf (inRun 3 false 128 7000 0) true 0 0).map (fun s => (control s, output s)) =
      some ((0, true, 1001), (0, 0, 0, 0)) := by decide

/-- T32: LEVEL 33 still subtracts. -/
theorem test_T32_tdn_ramp_33 :
    (tickOf (inRamp false 0x21) false 0 0).map (fun s => (control s, output s)) =
      some ((4, false, 1001), (128, 0, 1, 0)) := by decide

/-- T33: LEVEL 32 ends the ramp. -/
theorem test_T33_tdn_ramp_32 :
    (tickOf (inRamp false 0x20) false 0 0).map (fun s => (control s, output s)) =
      some ((0, true, 1001), (0, 0, 0, 0)) := by decide

/-- T36: the emergency stop of a ramp. -/
theorem test_T36_tdn_stop :
    (tickOf (inRamp false 0x7FE0) true 0 0).map (fun s => (control s, output s)) =
      some ((0, true, 1001), (0, 0, 0, 0)) := by decide

/-- U1: a reserved STATE is refused by name. -/
theorem test_reserved_st6_refused : refusalOf (step (withPulse (base 6 false) true 0 0)) = some (.reservedState 6) := by
  decide

/-- A placed reserved word is refused by name. -/
theorem test_reserved_st5_placed : refusalOf (step (State.reset.withFetchWord 24 0xA0000)) = some (.reservedState 5) := by
  decide

/-- A placed word is the next instruction: RDY.FEED with samples 129 and 255. -/
theorem test_placed_word_runs :
    (nextOf (step (State.reset.withFetchWord 24 0x281FF))).map (fun s => (s.state, s.fa0, s.fa1)) =
      some (1, 129, 255) := by decide

/-- R250: RST wins over the tick operation, in a reserved state too. -/
theorem test_reset_at_pulse :
    nextOf (step { base 7 false with level := 5, inputs := [⟨true, ⟨true, 1, 2⟩⟩] }) = some State.reset := by decide

/-! ### Ports, traces, disassembly -/

theorem test_sampleReq_advance_tick : sampleReq (base 0 false) false = false := by decide
theorem test_sampleReq_entry_tick : sampleReq (base 0 true) true = true := by decide
theorem test_sampleReq_arm_tick : sampleReq (base 1 false) true = false := by decide
theorem test_dutyPort : dutyPort (inRun 3 false 128 7 0) = 128 := by decide

def parsed (text : String) : Option Trace :=
  match parseTrace text.toList with
  | .ok tr => some tr
  | .error _ => none

theorem test_parse_statements :
    parsed "idle 7 thr=128 tim=-  ; comment\npress\nrun 0x3" =
      some (.idle 7 (some 128) none (.press none none (.run 3 .done))) := by decide

theorem test_parse_one_statement_a_line : parsed "tick b=1 tick b=0" = none := by decide
theorem test_parse_sample_range : parsed "tick b=0 thr=256" = none := by decide
theorem test_trace_words :
    (traceWords (.hold 2 (some 10) none (.tick none (some 1) (some 2) .done))).map inputBits =
      [0x10A00, 0x10A00, 0x00102] := by decide

/-- The two examples of 30_encoding R102. -/
theorem test_disassemble_arm : disassemble (decode (tickWord 1 (inputWordOf 0x18000))) = some "RDY.ARM thr=- tim=-" := by
  decide
theorem test_disassemble_feed :
    disassemble (decode (tickWord 1 (inputWordOf 0x08000))) = some "RDY.FEED thr=128 tim=0" := by decide

/-! ### Witnesses: for each statement with hypotheses, a state and operands that meet them all, per clause -/

/-- For the statements about one tick in a legal state: a pulse in each of the five states. -/
theorem witness_TakesTick_every_state :
    ∀ st : StateCode, st.toNat ≤ 4 →
      (base st true).state.toNat ≤ 4 ∧ TakesTick (withPulse (base st true) true 1 2) ⟨true, 1, 2⟩ [] := by
  intro st h
  exact ⟨h, rfl⟩

theorem witness_OpcodeMapSelectsOperation :
    (0x1FFFF#20 &&& 0xE0000 = 0x00000) ∧ (0x2FFFF#20 &&& 0xF0000 = 0x20000) ∧ (0x3FFFF#20 &&& 0xF0000 = 0x30000) ∧
    (0x5FFFF#20 &&& 0xE0000 = 0x40000) ∧ (0x6FFFF#20 &&& 0xF0000 = 0x60000) ∧ (0x7FFFF#20 &&& 0xF0000 = 0x70000) ∧
    (0x8FFFF#20 &&& 0xF0000 = 0x80000) ∧ (0x9FFFF#20 &&& 0xF0000 = 0x90000) ∧ (0xBFFFF#20 &&& 0xE0000 = 0xA0000) ∧
    (0xFFFFF#20 &&& 0xC0000 = 0xC0000) := by decide

/-- Also the fourth clause: a legal state from which an operation answers a next state. -/
theorem witness_ReservedWordsRefused :
    (0xA0000#20 &&& 0xE0000 = 0xA0000) ∧ (0xE0000#20 &&& 0xC0000 = 0xC0000) ∧
    (base 3 false).state.toNat ≤ 4 ∧ ∃ t, exec (.thrStop 0 0) (base 3 false) = .next t :=
  ⟨by decide, by decide, by decide, _, rfl⟩

theorem witness_StepRunsDecodedOperation : TakesTick (withPulse (base 6 true) true 1 2) ⟨true, 1, 2⟩ [] := rfl

theorem witness_PlacedWordRunsNext : State.reset.inputs = [] ∧ 0xFFFFF < 2 ^ 20 := by decide

theorem witness_ResetHoldsWhileAsserted :
    let p : TickInput := ⟨true, ⟨true, 1, 2⟩⟩
    [p, p] ≠ [] ∧ (∀ q ∈ [p, p], q.rst = true) ∧ { base 3 false with inputs := [p, p] }.inputs = [p, p] ++ [] := by
  decide

theorem witness_FeedRecurrence : (readSum { base 1 false with fa0 := 261120 } .throttle).toNat ≤ 261120 := by decide

theorem witness_FiltersIndependent :
    Channel.throttle ≠ Channel.time ∧ readSum (base 1 true) .time = readSum (base 1 false) .time := by decide

/-- Below the band of 128 at its edge, and above it at its edge. -/
theorem witness_FilterConvergesOnConstant :
    (readSum { base 1 false with fa0 := 131071 } .throttle).toNat ≤ 261120 ∧
    (readSum { base 1 false with fa0 := 131071 } .throttle).toNat < 1024 * (128 : Byte).toNat ∧
    (readSum { base 1 false with fa0 := 132096 } .throttle).toNat ≤ 261120 ∧
    1024 * (128 : Byte).toNat + 1023 < (readSum { base 1 false with fa0 := 132096 } .throttle).toNat := by decide

/-- An output of 128, with one unit up and one unit down, before and at the tick that shows it (fraction 1023). -/
theorem witness_OneUnitStepLatency :
    (readSum { base 1 false with fa0 := 132095 } .throttle).toNat / 1024 = (128 : Byte).toNat ∧
    (129 : Byte).toNat = (128 : Byte).toNat + 1 ∧ (127 : Byte).toNat + 1 = (128 : Byte).toNat ∧
    0 < 1024 - (readSum { base 1 false with fa0 := 132095 } .throttle).toNat % 1024 ∧
    1023 < (readSum { base 1 false with fa0 := 132095 } .throttle).toNat % 1024 + 1 := by decide

theorem witness_RunDurationFormula : (255 : Byte).toNat = (254 : Byte).toNat + 1 := by decide

/-- The running path at the entry and at timer 1, and the advance path. -/
theorem witness_RbwTickResult :
    (base 0 true).state = 0 ∧ (0 < if (base 0 true).chg then 500 else (base 0 true).dbt0.toNat) ∧
    { base 0 false with dbt0 := 1 }.state = 0 ∧ (0 < { base 0 false with dbt0 := 1 }.dbt0.toNat) ∧
    ¬ (0 < if (base 0 false).chg then 500 else (base 0 false).dbt0.toNat) := by decide

theorem witness_RdyFeedResult_RdyArmResult : (base 1 true).state = 1 := by decide

/-- The five paths: exhausted, elapsed, running, at the entry, and the outer else. -/
theorem witness_TbwTickResult :
    (inRun 2 false 9 1 5).state = 2 ∧ (inRun 2 false 9 1 5).dur.toNat ≤ 1 ∧ 0 < (inRun 2 false 9 1 5).dbt1.toNat ∧
    ¬ (inRun 2 false 9 2 1).dur.toNat ≤ 1 ∧ (inRun 2 false 9 2 1).dbt1.toNat = 1 ∧
    ¬ (inRun 2 false 9 2 2).dbt1.toNat = 1 ∧ (inRun 2 true 9 2 0).chg = true ∧
    ¬ (0 < (inRun 2 false 9 2 0).dbt1.toNat) := by decide

theorem witness_ThrRunResult :
    (inRun 3 false 9 1 0).state = 3 ∧ (inRun 3 false 9 1 0).dur.toNat ≤ 1 ∧ ¬ (inRun 3 false 9 2 0).dur.toNat ≤ 1 := by
  decide

theorem witness_ThrStopResult : (inRun 3 true 9 1 0).state = 3 := by decide

theorem witness_TdnRampResult :
    (inRamp false 32).state = 4 ∧ (inRamp false 32).level.toNat ≤ 32 ∧ ¬ (inRamp false 33).level.toNat ≤ 32 := by decide

theorem witness_TdnStopResult : (inRamp true 32).state = 4 := by decide

/-- A next state of each operation that the frames are about. -/
theorem witness_frames :
    (∃ t, exec (.rbwTick true 1 2) (base 0 true) = .next t) ∧ (∃ t, exec (.rdyFeed 1 2) (base 1 true) = .next t) ∧
    (∃ t, exec (.rdyArm 1 2) (base 1 true) = .next t) ∧ (∃ t, exec (.tbwTick true 1 2) (inRun 2 true 9 2 0) = .next t) ∧
    (∃ t, exec (.thrStop 1 2) (inRun 3 true 9 2 0) = .next t) ∧ (∃ t, exec (.tdnStop 1 2) (inRamp true 33) = .next t) :=
  ⟨⟨_, rfl⟩, ⟨_, rfl⟩, ⟨_, rfl⟩, ⟨_, rfl⟩, ⟨_, rfl⟩, ⟨_, rfl⟩⟩

/-- The two inner clauses of the frame of the run operations, each at its boundary. -/
theorem witness_RunOperationsFrame :
    (∃ t, exec (.tdnRamp 1 2) (inRamp true 33) = .next t) ∧ 32 < (inRamp true 33).level.toNat ∧
    (∃ t, exec (.thrRun 1 2) (inRun 3 true 9 2 0) = .next t) ∧ 1 < (inRun 3 true 9 2 0).dur.toNat :=
  ⟨⟨_, rfl⟩, by decide, ⟨_, rfl⟩, by decide⟩

theorem witness_TransitionRelation_reset :
    { base 3 false with inputs := [⟨true, ⟨true, 1, 2⟩⟩] }.inputs = ⟨true, ⟨true, 1, 2⟩⟩ :: [] := rfl

/-- Words that differ in the ignored bits: in a wait state in all fields on the advance path, in THRUST in the samples. -/
theorem witness_IgnoredBitsHaveNoEffect :
    (¬ ((base 0 false).state = 1 ∨ (base 0 false).state = 3 ∨ (base 0 false).state = 4)) ∧
    (¬ (((base 0 false).state = 0 ∧ ((base 0 false).chg = true ∨ 0 < (base 0 false).dbt0.toNat)) ∨
      ((base 0 false).state = 1 ∧ true = false))) ∧
    (⟨true, 1, 2⟩ : InputWord) ≠ ⟨false, 3, 4⟩ := by decide

theorem witness_EmergencyStop :
    (inRun 3 false 9 7 0).state = 3 ∧ (inRamp false 77).state = 4 ∧ (inRun 2 false 9 7 5).state = 2 ∧
    TakesTick (withPulse (inRamp false 77) true 1 2) ⟨true, 1, 2⟩ [] := ⟨rfl, rfl, rfl, rfl⟩

theorem witness_DebounceIgnoresButton :
    (base 0 true).state = 0 ∧ (base 2 true).state = 2 ∧ (base 1 true).state = 1 ∧ (base 3 true).state = 3 ∧
    (base 4 true).state = 4 := by decide

theorem witness_StopAndExpiryCoincide :
    ((inRun 3 false 9 1 0).state = 3 ∧ (inRun 3 false 9 1 0).dur.toNat ≤ 1) ∧
    ((inRamp false 32).state = 4 ∧ (inRamp false 32).level.toNat ≤ 32) := by decide

/-- Ticks from THRUST and THRUST_DOWN at the edges of the clause on which of them go idle. -/
theorem witness_IdleEntryZeroesOutput :
    (inRun 3 false 9 1 0).state.toNat ≤ 4 ∧ (inRun 3 false 9 1 0).state ≠ 0 ∧
    (tickOf (inRun 3 false 9 1 0) false 0 0).map State.state = some 0 ∧
    (tickOf (inRun 3 false 9 2 0) false 0 0).map State.state = some 3 ∧
    (tickOf (inRun 3 false 9 2 0) true 0 0).map State.state = some 0 ∧
    (tickOf (inRamp false 32) false 0 0).map State.state = some 0 ∧
    (tickOf (inRamp false 33) false 0 0).map State.state = some 4 ∧
    (tickOf (inRamp false 33) true 0 0).map State.state = some 0 := by decide

/-- A tick that holds the duty. -/
theorem witness_DutyHoldsElsewhere :
    ¬ ((inRun 3 false 9 7 0).state = 1 ∧ false = true) ∧ (inRun 3 false 9 7 0).state ≠ 4 ∧
    (tickOf (inRun 3 false 9 7 0) false 0 0).map State.state = some 3 := by decide

theorem witness_RampIsMonotone :
    DutyIsTopByte (withPulse (inRamp false 33) false 1 2) ∧ (withPulse (inRamp false 33) false 1 2).state = 4 ∧
    32 < (withPulse (inRamp false 33) false 1 2).level.toNat ∧
    TakesTick (withPulse (inRamp false 33) false 1 2) ⟨false, 1, 2⟩ [] := ⟨rfl, rfl, by decide, rfl⟩

/-- The levels at the edges of the clauses: 31, 32, 33, 64, 65. -/
theorem witness_RampOrdersCompared :
    (inRamp false 31).level.toNat < 32 ∧ (inRamp false 32).level.toNat = 32 ∧
    (32 < (inRamp false 33).level.toNat ∧ (inRamp false 64).level.toNat ≤ 64) ∧ 64 < (inRamp false 65).level.toNat := by
  decide

/-- A run in progress, in the invariant: what the invariants' statements start from besides reset. -/
theorem witness_Safe_in_run : Safe (inRun 2 true 9 501 0) where
  sums := by unfold SumsInRange; decide
  duty := by unfold DutyIsTopByte; decide
  idle := by unfold IdleIsOff; decide
  timers := by unfold TimersInRange; decide
  thrust := by unfold ThrustHasTime; decide
  notDown := by unfold NotThrustDown; decide
  run := by unfold RunHoldsDuty; decide
  legal := by unfold StateLegal; decide
  wait := by unfold WaitHasTime; decide

/-- A tick from a state that meets each of the three one-register invariants, at the edge of its range. -/
theorem witness_one_register_invariants :
    let s := withPulse { inRun 3 false 255 2 0 with fa0 := 261120, fa1 := 261120 } false 255 255
    SumsInRange s ∧ DutyIsTopByte s ∧ IdleIsOff s ∧ ∃ t, step s = .next t :=
  ⟨by unfold SumsInRange; decide, by unfold DutyIsTopByte; decide, by unfold IdleIsOff; decide, _, rfl⟩

/-- A state of the invariant that takes a tick, in a wait of the run. -/
theorem witness_ReachableCycle :
    Safe (withPulse (inRun 2 true 9 501 0) true 1 2) ∧ TakesTick (withPulse (inRun 2 true 9 501 0) true 1 2) ⟨true, 1, 2⟩ [] :=
  ⟨{ witness_Safe_in_run with }, rfl⟩

/-- The premises of `IdleStaysOff`'s second clause: a driven motor in a run. -/
theorem witness_IdleStaysOff :
    IdleIsOff (inRun 2 true 9 501 0) ∧ (inRun 2 true 9 501 0).state.toNat ≤ 4 ∧ (inRun 2 true 9 501 0).duty ≠ 0 :=
  ⟨witness_Safe_in_run.idle, by decide, by decide⟩

/-- An input word that presses or releases the button. -/
def word (btn : Bool) : InputWord := ⟨btn, 200, 100⟩

/-- `s` with a list of input words to take. -/
def withWords (s : State) (ws : List InputWord) : State := { s with inputs := pulsesOf ws ++ [] }

theorem witness_ReadyWaitTiming :
    ∃ (s : State) (ws : List InputWord) (rest : List TickInput),
      s.state = 0 ∧ s.chg = true ∧ ws.length = 501 ∧ s.inputs = pulsesOf ws ++ rest :=
  ⟨withWords State.reset (List.replicate 501 (word true)), List.replicate 501 (word true), [], rfl, rfl,
    List.length_replicate, rfl⟩

theorem witness_ThrustWaitTiming :
    ∃ (s : State) (w : InputWord) (ws : List InputWord) (rest : List TickInput),
      s.state = 1 ∧ w.btn = true ∧ ws.length = 500 ∧ s.inputs = pulsesOf (w :: ws) ++ rest :=
  ⟨withWords (base 1 false) (word true :: List.replicate 500 (word true)), word true, List.replicate 500 (word true), [],
    rfl, rfl, List.length_replicate, rfl⟩

theorem witness_UninterruptedRunLength :
    ∃ (s : State) (w : InputWord) (ws : List InputWord) (rest : List TickInput),
      s.state = 1 ∧ w.btn = true ∧ ws.length = (runDur (getFilter .time s)).toNat ∧
      (∀ k v, ws[k]? = some v → 500 ≤ k → v.btn = false) ∧ s.inputs = pulsesOf (w :: ws) ++ rest := by
  refine ⟨withWords (base 1 false) (word true :: List.replicate 15000 (word false)), word true,
    List.replicate 15000 (word false), [], rfl, rfl, ?_, ?_, rfl⟩
  · rw [List.length_replicate, runDur_toNat]
    rfl
  · intro k v h _
    have := List.mem_of_getElem? h
    rw [(List.mem_replicate.1 this).2]
    rfl

/-- A full-scale ramp, one from an armed level, and one that ends at once. -/
theorem witness_RampLengthAndDuty :
    ∀ p ∈ [(0xFFFF, 2048), (0x0200, 16), (0x0020, 1)],
      ∃ (s : State) (ws : List InputWord) (rest : List TickInput),
        s.state = 4 ∧ (∀ w ∈ ws, w.btn = false) ∧ s.level.toNat = p.1 ∧
        ws.length = (if s.level.toNat ≤ 32 then 0 else (s.level.toNat + 31) / 32 - 1) + 1 ∧ ws.length = p.2 ∧
        s.inputs = pulsesOf ws ++ rest := by
  intro p hp
  refine ⟨withWords (inRamp true (BitVec.ofNat 16 p.1)) (List.replicate p.2 (word false)), List.replicate p.2 (word false),
    [], rfl, fun w hw => ?_, ?_, ?_, List.length_replicate, rfl⟩
  · rw [(List.mem_replicate.1 hw).2]
    rfl
  · revert p
    decide
  · rw [List.length_replicate]
    revert p
    decide

theorem witness_HeldButtonPulses :
    ∃ (s : State) (ws : List InputWord) (rest : List TickInput),
      s.state = 0 ∧ s.chg = true ∧ s.duty = 0 ∧ ws.length = 1003 ∧ (∀ w ∈ ws, w.btn = true) ∧
      s.inputs = pulsesOf ws ++ rest := by
  refine ⟨withWords State.reset (List.replicate 1003 (word true)), List.replicate 1003 (word true), [], rfl, rfl, rfl,
    List.length_replicate, fun w hw => ?_, rfl⟩
  rw [(List.mem_replicate.1 hw).2]
  rfl

/-- The bounds of the clauses over the number of ticks. -/
theorem witness_tick_bounds : (1 ≤ 500 ∧ 500 ≤ 500) ∧ 501 ≤ 501 ∧ (502 ≤ 1002 ∧ 1002 ≤ 1002) := by decide

theorem witness_LoadedTraceIsTakenInOrder : (base 1 false).inputs = [] := rfl

end Sys2Proof.Tests
end

section
/-! SUPPORT. A tick as one body in one frame: which body each tick operation runs, and that the step at a pulse without RST runs
the body of the decoded operation (20_memory R60, 30_encoding R95). -/

namespace Sys2Proof.Machine

/-- The body that a tick operation runs in the frame of a tick (44_state_machine R182 to R198). The reserved words have no
operation and are refused (30_encoding R98): `exec_eq_runTick` says nothing of them, and their value here is never run. -/
def opBody : Instr → Tick → Tick
  | .rbwTick btn thr tim => readyWaitBody ⟨btn, thr, tim⟩
  | .rdyFeed thr tim => fun t => { t with regs := feedBoth ⟨false, thr, tim⟩ t.regs }
  | .rdyArm _ _ => armRun
  | .tbwTick _ _ _ => thrustWaitBody
  | .thrRun _ _ => thrustRunBody
  | .thrStop _ _ => retIdle
  | .tdnRamp _ _ => rampStep
  | .tdnStop _ _ => retIdle
  | .reservedSt5 _ _ _ => id
  | .reservedSt67 _ _ _ _ => id

/-- Every tick operation is its body in the frame of a tick (20_memory R60). -/
theorem exec_eq_runTick (i : Instr) (hi : i.WellFormed) (s : State) : exec i s = runTick (opBody i) s := by
  cases i with
  | reservedSt5 => exact absurd hi Bool.false_ne_true
  | reservedSt67 => exact absurd hi Bool.false_ne_true
  | _ => rfl

/-- In a legal state every input word selects a tick operation (30_encoding R94, R95). -/
theorem decode_tickWord_wellFormed (st : StateCode) (w : InputWord) (hst : st.toNat ≤ 4) :
    (decode (tickWord st w)).WellFormed := by
  rw [decode_tickWord]
  obtain ⟨btn, thr, tim⟩ := w
  rcases stateCode_cases st with rfl | rfl | rfl | rfl | rfl | rfl | rfl | rfl
  · rfl
  · cases btn <;> rfl
  · rfl
  · cases btn <;> rfl
  · cases btn <;> rfl
  all_goals exact absurd hst (by decide)

/-- The step at a pulse without RST is the decoded operation, on the state with the pulse used up (20_memory R60). -/
theorem step_eq_exec (s : State) (w : InputWord) (rest : List TickInput) (h : TakesTick s w rest) :
    step s = exec (decode (tickWord s.state w)) (afterPulse s rest) := by
  rw [TakesTick] at h
  rw [step, takePulse, h]
  rfl

/-- In a legal state that step is the body of the decoded operation in the frame of a tick (20_memory R60). -/
theorem step_eq_runTick (s : State) (w : InputWord) (rest : List TickInput) (hs : s.state.toNat ≤ 4)
    (h : TakesTick s w rest) : step s = runTick (opBody (decode (tickWord s.state w))) (afterPulse s rest) := by
  rw [step_eq_exec s w rest h, exec_eq_runTick _ (decode_tickWord_wellFormed s.state w hs)]

end Sys2Proof.Machine
end

section
/-! SUPPORT. TICKS is read by nothing (10_state R34): every body of a tick operation carries another value of TICKS through
unchanged, and so does the frame, up to its increment. From that the two statements of 10_state follow. -/

namespace Sys2Proof.Machine

/-- The tick in progress with another value of TICKS. -/
def Tick.withTicks (k : TickCount) (t : Tick) : Tick := { t with regs := { t.regs with ticks := k } }

/-- The body neither reads nor writes TICKS: it carries any value of it through (10_state R34). -/
def CarriesTicks (body : Tick → Tick) : Prop := ∀ (k : TickCount) (t : Tick), body (t.withTicks k) = (body t).withTicks k

theorem beginTick_withTicks (k : TickCount) (s : State) : beginTick { s with ticks := k } = (beginTick s).withTicks k := rfl

theorem endTick_withTicks (k : TickCount) (t : Tick) : endTick (t.withTicks k) = { endTick t with ticks := k + 1 } := rfl

/-- A body that carries TICKS through leaves TICKS as it was. -/
theorem CarriesTicks.regs_ticks {body : Tick → Tick} (h : CarriesTicks body) (t : Tick) :
    (body t).regs.ticks = t.regs.ticks := by
  have hb : body t = (body t).withTicks t.regs.ticks := h t.regs.ticks t
  calc (body t).regs.ticks = ((body t).withTicks t.regs.ticks).regs.ticks := congrArg (fun u : Tick => u.regs.ticks) hb
    _ = t.regs.ticks := rfl

theorem readyWaitBody_carriesTicks (w : InputWord) : CarriesTicks (readyWaitBody w) := by
  intro k t
  by_cases h : entryLoad t.regs.chg t.regs.dbt0 = 0
  · rw [readyWaitBody_advance w t h, readyWaitBody_advance w (t.withTicks k) h]
    rfl
  · rw [readyWaitBody_running w t h, readyWaitBody_running w (t.withTicks k) h]
    rfl

theorem thrustWaitBody_carriesTicks : CarriesTicks thrustWaitBody := by
  intro k t
  by_cases h : entryLoad t.regs.chg t.regs.dbt1 = 0
  · rw [thrustWaitBody_leave t h, thrustWaitBody_leave (t.withTicks k) h]
    rfl
  by_cases hd : satdec t.regs.dur = 0
  · rw [thrustWaitBody_exhausted t h hd, thrustWaitBody_exhausted (t.withTicks k) h hd]
    rfl
  by_cases h1 : entryLoad t.regs.chg t.regs.dbt1 - 1 = 0
  · rw [thrustWaitBody_elapsed t h hd h1, thrustWaitBody_elapsed (t.withTicks k) h hd h1]
    rfl
  · rw [thrustWaitBody_running t h hd h1, thrustWaitBody_running (t.withTicks k) h hd h1]
    rfl

theorem thrustRunBody_carriesTicks : CarriesTicks thrustRunBody := by
  intro k t
  by_cases h : satdec t.regs.dur = 0
  · rw [thrustRunBody_expired t h, thrustRunBody_expired (t.withTicks k) h]
    rfl
  · rw [thrustRunBody_running t h, thrustRunBody_running (t.withTicks k) h]
    rfl

theorem rampStep_carriesTicks : CarriesTicks rampStep := by
  intro k t
  by_cases h : t.regs.level.toNat ≤ 32
  · rw [rampStep_done t h, rampStep_done (t.withTicks k) h]
    rfl
  · rw [rampStep_running t (Nat.lt_of_not_le h), rampStep_running (t.withTicks k) (Nat.lt_of_not_le h)]
    rfl

/-- No tick operation reads or writes TICKS (10_state R34); for the operations that do not branch it is immediate. -/
theorem opBody_carriesTicks (i : Instr) : CarriesTicks (opBody i) := by
  cases i with
  | rbwTick btn thr tim => exact readyWaitBody_carriesTicks ⟨btn, thr, tim⟩
  | tbwTick => exact thrustWaitBody_carriesTicks
  | thrRun => exact thrustRunBody_carriesTicks
  | tdnRamp => exact rampStep_carriesTicks
  | rdyFeed | rdyArm | thrStop | tdnStop | reservedSt5 | reservedSt67 => exact fun _ _ => rfl

/-- The end of a tick whose body carries TICKS through, from another value of TICKS (20_memory R60, 10_state R34). -/
theorem CarriesTicks.endTick_eq {body : Tick → Tick} (h : CarriesTicks body) (k : TickCount) (s : State) :
    endTick (body (beginTick { s with ticks := k })) = { endTick (body (beginTick s)) with ticks := k + 1 } := by
  rw [beginTick_withTicks, h, endTick_withTicks]

/-- Settles O14: the body that STATE and BTN select carries TICKS through, and the frame adds one to it. -/
theorem ticksCountsAndInfluencesNothing : Obligations.TicksCountsAndInfluencesNothing := by
  refine ⟨rfl, fun s w rest hs h => ?_⟩
  have hbody := opBody_carriesTicks (decode (tickWord s.state w))
  refine ⟨_, step_eq_runTick s w rest hs h, ?_, fun k => ?_⟩
  · rw [endTick_ticks, hbody.regs_ticks, BitVec.toNat_add]
    rfl
  · rw [step_eq_runTick { s with ticks := k } w rest hs h]
    exact congrArg Host.Outcome.next (hbody.endTick_eq k (afterPulse s rest))

/-- Settles O10: the reset values are those of 10_state R38, the filter sums by way of SUM_RESET. -/
theorem resetValues : Obligations.ResetValues := rfl

end Sys2Proof.Machine
end

section
/-! SUPPORT. The frame of a tick (20_memory R60): no body of a tick operation writes STATE or the pulses still to come, and what
the end of a tick then makes of CHG and STATE. -/

namespace Sys2Proof.Machine

/-- STATE and the pulses still to come are as they were: what the body of a tick leaves alone, since STATE takes `next` only at
the end of the tick (20_memory R60; 00_scope R13). -/
structure SameFrame (old new : Tick) : Prop where
  state : new.regs.state = old.regs.state
  inputs : new.regs.inputs = old.regs.inputs

/-- The body writes neither STATE nor the pulses still to come. -/
def KeepsFrame (body : Tick → Tick) : Prop := ∀ t, SameFrame t (body t)

theorem readyWaitBody_keepsFrame (w : InputWord) : KeepsFrame (readyWaitBody w) := by
  intro t
  by_cases h : entryLoad t.regs.chg t.regs.dbt0 = 0
  · rw [readyWaitBody_advance w t h]
    exact ⟨rfl, rfl⟩
  · rw [readyWaitBody_running w t h]
    exact ⟨rfl, rfl⟩

theorem thrustWaitBody_keepsFrame : KeepsFrame thrustWaitBody := by
  intro t
  by_cases h : entryLoad t.regs.chg t.regs.dbt1 = 0
  · rw [thrustWaitBody_leave t h]
    exact ⟨rfl, rfl⟩
  by_cases hd : satdec t.regs.dur = 0
  · rw [thrustWaitBody_exhausted t h hd]
    exact ⟨rfl, rfl⟩
  by_cases h1 : entryLoad t.regs.chg t.regs.dbt1 - 1 = 0
  · rw [thrustWaitBody_elapsed t h hd h1]
    exact ⟨rfl, rfl⟩
  · rw [thrustWaitBody_running t h hd h1]
    exact ⟨rfl, rfl⟩

theorem thrustRunBody_keepsFrame : KeepsFrame thrustRunBody := by
  intro t
  by_cases h : satdec t.regs.dur = 0
  · rw [thrustRunBody_expired t h]
    exact ⟨rfl, rfl⟩
  · rw [thrustRunBody_running t h]
    exact ⟨rfl, rfl⟩

theorem rampStep_keepsFrame : KeepsFrame rampStep := by
  intro t
  by_cases h : t.regs.level.toNat ≤ 32
  · rw [rampStep_done t h]
    exact ⟨rfl, rfl⟩
  · rw [rampStep_running t (Nat.lt_of_not_le h)]
    exact ⟨rfl, rfl⟩

/-- No tick operation writes STATE or the pulses still to come; for the operations that do not branch it is immediate. -/
theorem opBody_keepsFrame (i : Instr) : KeepsFrame (opBody i) := by
  cases i with
  | rbwTick btn thr tim => exact readyWaitBody_keepsFrame ⟨btn, thr, tim⟩
  | tbwTick => exact thrustWaitBody_keepsFrame
  | thrRun => exact thrustRunBody_keepsFrame
  | tdnRamp => exact rampStep_keepsFrame
  | rdyFeed | rdyArm | thrStop | tdnStop | reservedSt5 | reservedSt67 => exact fun _ => ⟨rfl, rfl⟩

/-- After a body that keeps the frame, CHG says whether the tick changed STATE (20_memory R60, 10_state R33). -/
theorem KeepsFrame.endTick_chg_eq {body : Tick → Tick} (h : KeepsFrame body) (s : State) :
    (endTick (body (beginTick s))).chg = decide ((endTick (body (beginTick s))).state ≠ s.state) := by
  rw [endTick_chg, chgFlag_eq, endTick_state, (h _).state, beginTick_regs]

/-- Settles O12: the step is the body that STATE and BTN select in the frame of a tick; no body writes STATE, TICKS or the pulses
still to come, so the end of the tick alone updates them. -/
theorem tickFrame : Obligations.TickFrame := by
  intro s w rest hs h
  have hstep := step_eq_runTick s w rest hs h
  have hframe := opBody_keepsFrame (decode (tickWord s.state w))
  have hticks := opBody_carriesTicks (decode (tickWord s.state w))
  refine ⟨_, hstep, (step_eq_exec s w rest h).symm.trans hstep, hframe.endTick_chg_eq (afterPulse s rest), ?_, ?_⟩
  · rw [endTick_ticks, hticks.regs_ticks, BitVec.toNat_add]
    rfl
  · rw [endTick_inputs, (hframe _).inputs]
    rfl

end Sys2Proof.Machine
end

section
/-! SUPPORT. The opcode map row by row (30_encoding R94, R98): what the match and mask of a row say of the fields of a word, what a
word with those fields decodes to, and that every word selects exactly one row. -/

namespace Sys2Proof

/-- A match under the mask 0xE0000 fixes the ST field. -/
theorem st_of_mask_st {t : TickBits} {st : StateCode} (h : t &&& 0xE0000 = st ++ 0#17) : t.extractLsb' 17 3 = st :=
  (BitVec.append_left_inj 0#17).1 ((mask_st t).symm.trans h)

/-- A match under the mask 0xF0000 fixes the ST field and B. -/
theorem st_btn_of_mask_st_btn {t : TickBits} {st : StateCode} {btn : Bool}
    (h : t &&& 0xF0000 = st ++ (BitVec.ofBool btn ++ 0#16)) : t.extractLsb' 17 3 = st ∧ t.getLsbD 16 = btn := by
  have hfields := (mask_st_btn t).symm.trans h
  have hst : t.extractLsb' 17 3 = st := by
    simpa only [BitVec.extractLsb'_append_eq_left] using congrArg (BitVec.extractLsb' 17 3) hfields
  rw [hst, BitVec.append_right_inj, BitVec.append_left_inj] at hfields
  exact ⟨hst, BitVec.ofBool_eq_iff_eq.1 hfields⟩

/-- The low bit of the ST field, read in any word. -/
theorem st_low (t : TickBits) : (t.extractLsb' 17 3).getLsbD 0 = t.getLsbD 17 := by
  simp

/-- A match under the mask 0xC0000 in the reserved row fixes the ST field but for its low bit (30_encoding R98). -/
theorem st_of_mask_st_high {t : TickBits} (h : t &&& 0xC0000 = 0xC0000) :
    t.extractLsb' 17 3 = 3#2 ++ BitVec.ofBool (t.getLsbD 17) := by
  have hhigh : t.extractLsb' 17 3 &&& 6#3 = 6#3 := (BitVec.append_left_inj 0#17).1 ((mask_st_high t).symm.trans h)
  have hcodes : ∀ st : StateCode, st &&& 6#3 = 6#3 → st = 3#2 ++ BitVec.ofBool (st.getLsbD 0) := by decide
  rw [← st_low]
  exact hcodes _ hhigh

/-- Decoding a word from its ST field, the other fields as they are (30_encoding R91). -/
theorem decode_of_st {t : TickBits} {st : StateCode} (h : t.extractLsb' 17 3 = st) :
    decode t = decode (tickWord st ⟨t.getLsbD 16, t.extractLsb' 8 8, t.extractLsb' 0 8⟩) := by
  rw [← h, tickWord_of_fields]

/-- Decoding a word of a row that B takes no part in selecting (30_encoding R94). -/
theorem decode_of_mask_st {t : TickBits} {st : StateCode} (h : t &&& 0xE0000 = st ++ 0#17) :
    decode t = decode (tickWord st ⟨t.getLsbD 16, t.extractLsb' 8 8, t.extractLsb' 0 8⟩) :=
  decode_of_st (st_of_mask_st h)

/-- Decoding a word of a row that ST and B select (30_encoding R94). -/
theorem decode_of_mask_st_btn {t : TickBits} {st : StateCode} {btn : Bool}
    (h : t &&& 0xF0000 = st ++ (BitVec.ofBool btn ++ 0#16)) :
    decode t = decode (tickWord st ⟨btn, t.extractLsb' 8 8, t.extractLsb' 0 8⟩) := by
  obtain ⟨hst, hbtn⟩ := st_btn_of_mask_st_btn h
  rw [decode_of_st hst, hbtn]

/-- Decoding a word of the row RESERVED.ST5 (30_encoding R98). -/
theorem decode_of_mask_st5 {t : TickBits} (h : t &&& 0xE0000 = 0xA0000) :
    decode t = .reservedSt5 (t.getLsbD 16) (t.extractLsb' 8 8) (t.extractLsb' 0 8) :=
  (decode_of_mask_st (st := 5) h).trans (decode_tickWord 5 _)

/-- Decoding a word of the row RESERVED.ST6_7 (30_encoding R98). -/
theorem decode_of_mask_st67 {t : TickBits} (h : t &&& 0xC0000 = 0xC0000) :
    decode t = .reservedSt67 (t.getLsbD 17) (t.getLsbD 16) (t.extractLsb' 8 8) (t.extractLsb' 0 8) := by
  rw [decode_of_st (st_of_mask_st_high h), decode_tickWord]
  cases t.getLsbD 17 <;> rfl

/-- Every word selects exactly one row of the opcode map: the rows it selects depend on ST and B alone, and the sixteen cases of
those are counted (30_encoding R94). -/
theorem selectedRows_length (t : TickBits) : (selectedRows t).length = 1 := by
  have hcases : ∀ (st : StateCode) (btn : Bool), (selectedRows (tickWord st ⟨btn, 0, 0⟩)).length = 1 := by decide
  rw [selectedRows_eq]
  exact hcases _ _

/-- The rows of the opcode map as pairs of match and mask, counted, are the rows that the word selects. -/
theorem countP_opcodeMap (t : TickBits) :
    (opcodeMap.map fun r => (r.pattern, r.mask)).countP (fun r : TickBits × TickBits => t &&& r.2 == r.1) =
      (selectedRows t).length := by
  rw [List.countP_map, selectedRows, ← List.countP_eq_length_filter]
  rfl

/-- Settles O3: each row fixes ST, and B where it takes part in the selection, and a word decodes by those fields; the rows listed
are those of the opcode map, of which every word selects one. -/
theorem opcodeMapSelectsOperation : Obligations.OpcodeMapSelectsOperation := by
  refine ⟨⟨rfl, rfl, rfl, rfl, rfl⟩, fun t => ?_⟩
  refine ⟨?rbwTick, ?rdyFeed, ?rdyArm, ?tbwTick, ?thrRun, ?thrStop, ?tdnRamp, ?tdnStop, decode_of_mask_st5,
    decode_of_mask_st67, (countP_opcodeMap t).trans (selectedRows_length t)⟩
  case rbwTick => exact fun h => (decode_of_mask_st (st := 0) h).trans (decode_tickWord 0 _)
  case rdyFeed => exact fun h => (decode_of_mask_st_btn (st := 1) (btn := false) h).trans (decode_tickWord 1 _)
  case rdyArm => exact fun h => (decode_of_mask_st_btn (st := 1) (btn := true) h).trans (decode_tickWord 1 _)
  case tbwTick => exact fun h => (decode_of_mask_st (st := 2) h).trans (decode_tickWord 2 _)
  case thrRun => exact fun h => (decode_of_mask_st_btn (st := 3) (btn := false) h).trans (decode_tickWord 3 _)
  case thrStop => exact fun h => (decode_of_mask_st_btn (st := 3) (btn := true) h).trans (decode_tickWord 3 _)
  case tdnRamp => exact fun h => (decode_of_mask_st_btn (st := 4) (btn := false) h).trans (decode_tickWord 4 _)
  case tdnStop => exact fun h => (decode_of_mask_st_btn (st := 4) (btn := true) h).trans (decode_tickWord 4 _)

end Sys2Proof
end

section
/-! SUPPORT. The input word and the tick word as numbers (30_encoding R91, R92). -/

namespace Sys2Proof

/-- The number of two fields side by side: the upper one weighs 2 to the width of the lower one. -/
theorem append_toNat {m n : Nat} (x : BitVec m) (y : BitVec n) : (x ++ y).toNat = x.toNat * 2 ^ n + y.toNat := by
  rw [BitVec.toNat_append, ← Nat.shiftLeft_add_eq_or_of_lt y.isLt, Nat.shiftLeft_eq]

/-- The input word as a number (30_encoding R92). -/
theorem inputBits_toNat (w : InputWord) :
    (inputBits w).toNat = (if w.btn then 2 ^ 16 else 0) + w.sThr.toNat * 2 ^ 8 + w.sTime.toNat := by
  rw [inputBits, append_toNat, append_toNat, BitVec.toNat_ofBool]
  cases w.btn
  · simp
  · simp only [Bool.toNat_true, if_true]
    omega

/-- The tick word as a number (30_encoding R91). -/
theorem tickWord_toNat (st : StateCode) (w : InputWord) :
    (tickWord st w).toNat =
      st.toNat * 2 ^ 17 + (if w.btn then 2 ^ 16 else 0) + w.sThr.toNat * 2 ^ 8 + w.sTime.toNat := by
  rw [tickWord, append_toNat, inputBits_toNat, ← Nat.add_assoc, ← Nat.add_assoc]

/-- The low 17 bits of a tick word are its input word (30_encoding R91, R92). -/
theorem tickWord_inputBits (st : StateCode) (w : InputWord) : (tickWord st w).extractLsb' 0 17 = inputBits w :=
  BitVec.extractLsb'_append_eq_right

/-- Settles O4: the number is the fields' weighted sum, and each field is read back from the word. -/
theorem tickWordFields : Obligations.TickWordFields := fun st w =>
  ⟨tickWord_toNat st w, tickWord_st st w, tickWord_btn st w, tickWord_thr st w, tickWord_tim st w,
    tickWord_inputBits st w, inputWordOf_inputBits w⟩

end Sys2Proof
end

section
/-! SUPPORT. Which states a tick can lead to (30_encoding R98): a body of a tick operation leaves `next` as it is or sets it to one
of the five states, so a legal STATE is followed by a legal STATE; the reserved words are refused. -/

namespace Sys2Proof.Machine

/-- The code of every state is legal (10_state R32). -/
theorem stateCode_le_four (st : SystemState) : (stateCode st).toNat ≤ 4 := by
  cases st <;> decide

/-- The body carries a legal `next` to a legal `next`. -/
def KeepsNextLegal (body : Tick → Tick) : Prop := ∀ t : Tick, t.next.toNat ≤ 4 → (body t).next.toNat ≤ 4

theorem readyWaitBody_keepsNextLegal (w : InputWord) : KeepsNextLegal (readyWaitBody w) := by
  intro t ht
  by_cases h : entryLoad t.regs.chg t.regs.dbt0 = 0
  · rw [readyWaitBody_advance w t h]
    exact stateCode_le_four .ready
  · rw [readyWaitBody_running w t h]
    exact ht

theorem thrustWaitBody_keepsNextLegal : KeepsNextLegal thrustWaitBody := by
  intro t ht
  by_cases h : entryLoad t.regs.chg t.regs.dbt1 = 0
  · rw [thrustWaitBody_leave t h]
    exact stateCode_le_four .thrust
  by_cases hd : satdec t.regs.dur = 0
  · rw [thrustWaitBody_exhausted t h hd]
    exact stateCode_le_four .thrustDown
  by_cases h1 : entryLoad t.regs.chg t.regs.dbt1 - 1 = 0
  · rw [thrustWaitBody_elapsed t h hd h1]
    exact stateCode_le_four .thrust
  · rw [thrustWaitBody_running t h hd h1]
    exact ht

/-- The return to idle sets `next` to READY_BTN_WAIT (43_output_stage R170). -/
theorem retIdle_keepsNextLegal : KeepsNextLegal retIdle := fun _ _ => stateCode_le_four .readyBtnWait

theorem thrustRunBody_keepsNextLegal : KeepsNextLegal thrustRunBody := by
  intro t ht
  by_cases h : satdec t.regs.dur = 0
  · rw [thrustRunBody_expired t h]
    exact retIdle_keepsNextLegal _ ht
  · rw [thrustRunBody_running t h]
    exact ht

theorem rampStep_keepsNextLegal : KeepsNextLegal rampStep := by
  intro t ht
  by_cases h : t.regs.level.toNat ≤ 32
  · rw [rampStep_done t h]
    exact retIdle_keepsNextLegal t ht
  · rw [rampStep_running t (Nat.lt_of_not_le h)]
    exact ht

/-- No body of a tick operation sets `next` to a reserved code (30_encoding R98). -/
theorem opBody_keepsNextLegal (i : Instr) : KeepsNextLegal (opBody i) := by
  cases i with
  | rbwTick btn thr tim => exact readyWaitBody_keepsNextLegal ⟨btn, thr, tim⟩
  | rdyArm => exact fun _ _ => stateCode_le_four .thrustBtnWait
  | tbwTick => exact thrustWaitBody_keepsNextLegal
  | thrRun => exact thrustRunBody_keepsNextLegal
  | thrStop | tdnStop => exact retIdle_keepsNextLegal
  | tdnRamp => exact rampStep_keepsNextLegal
  | rdyFeed | reservedSt5 | reservedSt67 => exact fun _ ht => ht

/-- Only a tick operation answers a next state: the reserved words are refused (30_encoding R98). -/
theorem wellFormed_of_exec_next {i : Instr} {s t : State} (h : exec i s = .next t) : i.WellFormed := by
  cases i with
  | reservedSt5 => cases h
  | reservedSt67 => cases h
  | _ => rfl

/-- From a legal STATE every operation that answers a next state leaves a legal STATE (30_encoding R98, 10_state R41). -/
theorem exec_state_legal {i : Instr} {s t : State} (hs : s.state.toNat ≤ 4) (h : exec i s = .next t) :
    t.state.toNat ≤ 4 := by
  rw [exec_eq_runTick i (wellFormed_of_exec_next h), runTick_eq] at h
  cases h
  exact opBody_keepsNextLegal i (beginTick s) hs

/-- A word of either reserved pattern is refused with its ST field (30_encoding R98). -/
theorem exec_decode_reserved {t : TickBits} (h : t &&& 0xE0000 = 0xA0000 ∨ t &&& 0xC0000 = 0xC0000) (s : State) :
    exec (decode t) s = .refused (.reservedState (t.extractLsb' 17 3)) := by
  rcases h with h5 | h67
  · rw [decode_of_mask_st5 h5, st_of_mask_st (st := 5) h5]
    rfl
  · rw [decode_of_mask_st67 h67, st_of_mask_st_high h67]
    cases t.getLsbD 17 <;> rfl

/-- Settles O7: the reserved rows answer a refusal whatever the state, and the bodies of the others keep `next` legal. -/
theorem reservedWordsRefused : Obligations.ReservedWordsRefused :=
  ⟨fun _ _ _ _ => rfl, fun _ _ _ _ _ => rfl, fun _ s h => exec_decode_reserved h s, fun _ _ _ => exec_state_legal, rfl⟩

end Sys2Proof.Machine
end

section
/-! SUPPORT. The pseudo-statements of a trace (30_encoding R101). -/

namespace Sys2Proof.Machine

/-- A block of one base statement is its input word again and again (30_encoding R100). -/
theorem traceWords_rep_tick (n : Nat) (b : Option Bool) (thr tim : Option Byte) (rest : Trace) :
    traceWords (.rep n (.tick b thr tim .done) rest) = List.replicate n (statementWord b thr tim) ++ traceWords rest := by
  simp only [traceWords, List.flatten_replicate_singleton]

/-- Settles O57: `press` is its base statement, and the other three are a block of one base statement. -/
theorem pseudoStatementsExpand : Obligations.PseudoStatementsExpand := fun n thr tim rest =>
  ⟨(traceWords_rep_tick n (some false) thr tim rest).symm, rfl, (traceWords_rep_tick n (some true) thr tim rest).symm,
    (traceWords_rep_tick n (some false) none none rest).symm⟩

end Sys2Proof.Machine
end

section
/-! SUPPORT. One feed of a filter and its output, as numbers (40_filter R121, R122). -/

namespace Sys2Proof.Machine

/-- A sum that was written is read back, in either channel (00_scope R14). -/
@[simp] theorem readSum_writeSum_same (c : Channel) (v : SumWord) (s : State) : readSum (writeSum c v s) c = v := by
  cases c <;> rfl

/-- The word a feed writes is the word it leaves in the sum: no other register is written (40_filter R121). -/
theorem feed_eq_writeSum (c : Channel) (smp : Byte) (s : State) :
    feed c smp s = writeSum c (readSum (feed c smp s) c) s := by
  rw [feed, readSum_writeSum_same]

/-- The sum after a feed, as a number (40_filter R121). -/
theorem readSum_feed_toNat (c : Channel) (smp : Byte) (s : State) :
    (readSum (feed c smp s) c).toNat = (readSum s c).toNat + smp.toNat - (readSum s c).toNat / 1024 := by
  rw [feed, readSum_writeSum_same, filterNext_toNat]

/-- The recurrence over the integers: the subtracted part is at most the sum, so nothing is cut at 0 (40_filter R121). -/
theorem readSum_feed_toInt (c : Channel) (smp : Byte) (s : State) :
    ((readSum (feed c smp s) c).toNat : Int) =
      (readSum s c).toNat + smp.toNat - ((readSum s c).toNat / 1024 : Nat) := by
  rw [readSum_feed_toNat]
  omega

/-- A feed keeps the range of a sum, 0..255 * 1024: a sample adds at most 255, and the subtracted part is 255 at the upper
end and at least 254 just below it (40_filter R121, 10_state R22). -/
theorem readSum_feed_le (c : Channel) (smp : Byte) (s : State) (h : (readSum s c).toNat ≤ 261120) :
    (readSum (feed c smp s) c).toNat ≤ 261120 := by
  have hs := smp.isLt
  rw [readSum_feed_toNat]
  omega

/-- Settles O15: the feed's word as a number, over the integers and against the range, and the one write it is. -/
theorem feedRecurrence : Obligations.FeedRecurrence := fun c smp s =>
  ⟨readSum_feed_toInt c smp s, readSum_feed_le c smp s, feed_eq_writeSum c smp s⟩

/-- The output of a filter, as a number (40_filter R122). -/
theorem getFilter_toNat (c : Channel) (s : State) : (getFilter c s).toNat = (readSum s c).toNat / 1024 :=
  filterOut_toNat (readSum s c)

/-- The output of a filter with running sum `sum` is bits 17..10 of it (40_filter R122). -/
theorem filterOut_eq_extractLsb' (sum : SumWord) : filterOut sum = sum.extractLsb' 10 8 := rfl

/-- Settles O16: the shift by SHIFT narrowed to a byte is the bit field, and the division of its number. -/
theorem getIsUpperBits : Obligations.GetIsUpperBits := fun c s =>
  ⟨filterOut_eq_extractLsb' (readSum s c), getFilter_toNat c s⟩

end Sys2Proof.Machine
end

section
/-! SUPPORT. The range and the step of a run's duration (41_run_duration R140, R141). -/

namespace Sys2Proof.Machine

/-- The shortest run is the one of time value 0 (41_run_duration R140). -/
theorem le_runDur_toNat (t : Byte) : 15000 ≤ (runDur t).toNat := by
  rw [runDur_toNat]
  exact Nat.le_add_right 15000 _

/-- The longest run is the one of time value 255 (41_run_duration R140). -/
theorem runDur_toNat_le (t : Byte) : (runDur t).toNat ≤ 145560 := by
  have ht := t.isLt
  rw [runDur_toNat]
  omega

/-- One unit of the time value is 512 ticks (41_run_duration R140). -/
theorem runDur_toNat_of_succ {t u : Byte} (h : u.toNat = t.toNat + 1) : (runDur u).toNat = (runDur t).toNat + 512 := by
  rw [runDur_toNat, runDur_toNat, h, Nat.succ_mul, Nat.add_assoc]

/-- Settles O20: the duration as a number, its range, its values at the two ends of the dial, and its step. -/
theorem runDurationFormula : Obligations.RunDurationFormula := fun t =>
  ⟨runDur_toNat t, le_runDur_toNat t, runDur_toNat_le t, runDur_toNat 0, runDur_toNat 255, fun _ => runDur_toNat_of_succ⟩

end Sys2Proof.Machine
end

section
/-! SUPPORT. Which ticks return to idle (43_output_stage R171): from a state other than READY_BTN_WAIT, a body of a tick operation
either is RETIDLE, which zeroes the output as it sets `next`, or leaves `next` at another state. -/

namespace Sys2Proof.Machine

/-- The tick `t`, at the end of its body, is going idle exactly where `c` holds, and then its output registers are 0. -/
structure IdlesIff (c : Prop) (t : Tick) : Prop where
  next : t.next = 0 ↔ c
  off : t.next = 0 → t.regs.duty = 0 ∧ t.regs.level = 0 ∧ t.regs.thrust = 0 ∧ t.regs.dur = 0

/-- The return to idle, where its condition holds (43_output_stage R170). -/
theorem retIdle_idlesIff {c : Prop} (hc : c) (t : Tick) : IdlesIff c (retIdle t) :=
  ⟨iff_of_true rfl hc, fun _ => ⟨rfl, rfl, rfl, rfl⟩⟩

/-- A tick that does not go idle, where the condition does not hold. -/
theorem idlesIff_of_next_ne {c : Prop} {t : Tick} (hn : t.next ≠ 0) (hc : ¬ c) : IdlesIff c t :=
  ⟨iff_of_false hn hc, fun h => absurd h hn⟩

/-- No path of TBW.TICK goes idle: even a run whose duration is exhausted in the wait ramps down (44_state_machine R188). -/
theorem thrustWaitBody_next_ne (t : Tick) (hn : t.next ≠ 0) : (thrustWaitBody t).next ≠ 0 := by
  by_cases h : entryLoad t.regs.chg t.regs.dbt1 = 0
  · rw [thrustWaitBody_leave t h]
    exact show stateCode .thrust ≠ 0 by decide
  by_cases hd : satdec t.regs.dur = 0
  · rw [thrustWaitBody_exhausted t h hd]
    exact show stateCode .thrustDown ≠ 0 by decide
  by_cases h1 : entryLoad t.regs.chg t.regs.dbt1 - 1 = 0
  · rw [thrustWaitBody_elapsed t h hd h1]
    exact show stateCode .thrust ≠ 0 by decide
  · rw [thrustWaitBody_running t h hd h1]
    exact hn

/-- THR.RUN goes idle exactly where the run expires (44_state_machine R192). -/
theorem thrustRunBody_idlesIff {c : Prop} (t : Tick) (hn : t.next ≠ 0) (hc : c ↔ t.regs.dur.toNat ≤ 1) :
    IdlesIff c (thrustRunBody t) := by
  rw [← satdec_eq_zero] at hc
  by_cases h : satdec t.regs.dur = 0
  · rw [thrustRunBody_expired t h]
    exact retIdle_idlesIff (hc.2 h) _
  · rw [thrustRunBody_running t h]
    exact idlesIff_of_next_ne hn (mt hc.1 h)

/-- A ramp step goes idle exactly where the level is depleted (42_ramp_down R151). -/
theorem rampStep_idlesIff {c : Prop} (t : Tick) (hn : t.next ≠ 0) (hc : c ↔ t.regs.level.toNat ≤ 32) :
    IdlesIff c (rampStep t) := by
  by_cases h : t.regs.level.toNat ≤ 32
  · rw [rampStep_done t h]
    exact retIdle_idlesIff (hc.2 h) t
  · rw [rampStep_running t (Nat.lt_of_not_le h)]
    exact idlesIff_of_next_ne hn (mt hc.1 h)

/-- What calls RETIDLE in a state: the button in a run or a ramp, the end of the run, or the end of the ramp (60_exceptions R221). -/
def CallsRetIdle (st : StateCode) (btn : Bool) (s : State) : Prop :=
  (st = 3 ∧ (btn = true ∨ s.dur.toNat ≤ 1)) ∨ (st = 4 ∧ (btn = true ∨ s.level.toNat ≤ 32))

/-- In a legal state other than READY_BTN_WAIT the body that STATE and BTN select goes idle exactly where it calls RETIDLE. -/
theorem opBody_idlesIff (st : StateCode) (w : InputWord) (t : Tick) (hst : st.toNat ≤ 4) (h0 : st ≠ 0) (ht : t.next = st) :
    IdlesIff (CallsRetIdle st w.btn t.regs) (opBody (decode (tickWord st w)) t) := by
  have hn : t.next ≠ 0 := ht ▸ h0
  obtain ⟨btn, thr, tim⟩ := w
  rw [decode_tickWord]
  rcases stateCode_cases st with rfl | rfl | rfl | rfl | rfl | rfl | rfl | rfl
  · exact absurd rfl h0
  · cases btn with
    | false => exact idlesIff_of_next_ne hn (by simp [CallsRetIdle])
    | true => exact idlesIff_of_next_ne (t := armRun t) (by simp) (by simp [CallsRetIdle])
  · exact idlesIff_of_next_ne (thrustWaitBody_next_ne t hn) (by simp [CallsRetIdle])
  · cases btn with
    | false => exact thrustRunBody_idlesIff t hn (by simp [CallsRetIdle])
    | true => exact retIdle_idlesIff (by simp [CallsRetIdle]) t
  · cases btn with
    | false => exact rampStep_idlesIff t hn (by simp [CallsRetIdle])
    | true => exact retIdle_idlesIff (by simp [CallsRetIdle]) t
  all_goals exact absurd hst (by decide)

/-- Settles O39: the step is the body that STATE and BTN select, and the end of the tick keeps the registers that body leaves and
gives STATE its `next`. -/
theorem idleEntryZeroesOutput : Obligations.IdleEntryZeroesOutput := by
  intro s w rest hs h0 h
  obtain ⟨hnext, hoff⟩ := opBody_idlesIff s.state w (beginTick (afterPulse s rest)) hs h0 rfl
  exact ⟨_, step_eq_runTick s w rest hs h, hnext, hoff⟩

end Sys2Proof.Machine
end

section
/-! SUPPORT. What the primitives of a tick operation leave in the registers, in the numbers of the registers before, and the end of
a tick that stays and of one that leaves (20_memory R60). -/

namespace Sys2Proof.Machine

/-- FEEDBOTH as its two new sums (40_filter R121, R123). -/
theorem feedBoth_eq (w : InputWord) (s : State) :
    feedBoth w s = { s with
      fa0 := BitVec.ofNat 18 (s.fa0.toNat + w.sThr.toNat - s.fa0.toNat / 1024)
      fa1 := BitVec.ofNat 18 (s.fa1.toNat + w.sTime.toNat - s.fa1.toNat / 1024) } := by
  rw [← filterNext_eq, ← filterNext_eq]
  rfl

/-- What an arm loads, in the numbers of the two sums (44_state_machine R186, 40_filter R122, 41_run_duration R141). -/
theorem armRun_eq (t : Tick) :
    armRun t = goto .thrustBtnWait { t with regs := { t.regs with
      thrust := BitVec.ofNat 8 (t.regs.fa0.toNat / 1024)
      dur := BitVec.ofNat 18 (15000 + t.regs.fa1.toNat / 1024 * 512)
      duty := BitVec.ofNat 8 (t.regs.fa0.toNat / 1024)
      level := BitVec.ofNat 16 (t.regs.fa0.toNat / 1024 * 256) } } := by
  have hthr : (getFilter .throttle t.regs).toNat = t.regs.fa0.toNat / 1024 := getFilter_toNat .throttle t.regs
  have htim : (getFilter .time t.regs).toNat = t.regs.fa1.toNat / 1024 := getFilter_toNat .time t.regs
  rw [← hthr, ← htim, ← thrustLevel_toNat, ← runDur_toNat]
  simp only [BitVec.ofNat_toNat, BitVec.setWidth_eq]
  rfl

/-- The saturating decrement, narrowed back (00_scope R12). -/
theorem satdec_eq_ofNat (a : DurWord) : satdec a = BitVec.ofNat 18 (a.toNat - 1) := by
  rw [← satdec_toNat, BitVec.ofNat_toNat, BitVec.setWidth_eq]

/-- The subtraction of a ramp step in the number of the level, where it is taken (42_ramp_down R151). -/
theorem rampSubtract_eq (t : Tick) (h : 32 < t.regs.level.toNat) :
    rampSubtract t = { t with regs := { t.regs with
      level := BitVec.ofNat 16 (t.regs.level.toNat - 32)
      duty := BitVec.ofNat 8 ((t.regs.level.toNat - 32) / 256) } } := by
  rw [← level_sub_toNat _ h, ← levelDuty_toNat]
  simp only [BitVec.ofNat_toNat, BitVec.setWidth_eq]
  rfl

/-- A timer that is positive after the entry action runs (44_state_machine R181). -/
theorem entryLoad_ne_zero {chg : Bool} {d : TimerWord} (h : 0 < if chg then 500 else d.toNat) : entryLoad chg d ≠ 0 :=
  mt (entryLoad_eq_zero chg d).1 h.ne'

/-- A timer that is 0 after the entry action is the register as it was: the entry action loads no 0 (44_state_machine R181). -/
theorem entryLoad_eq_self {chg : Bool} {d : TimerWord} (h : entryLoad chg d = 0) : entryLoad chg d = d := by
  cases chg with
  | false => rfl
  | true => exact absurd (show (500 : TimerWord) = 0 from h) (by decide)

/-- A running timer less one, in the number of the timer after the entry action (44_state_machine R181). -/
theorem entryLoad_pred {chg : Bool} {d : TimerWord} (h : entryLoad chg d ≠ 0) :
    entryLoad chg d - 1 = BitVec.ofNat 9 ((if chg then 500 else d.toNat) - 1) := by
  rw [← entryLoad_toNat, ← timer_pred_toNat _ h, BitVec.ofNat_toNat, BitVec.setWidth_eq]

/-- The tick brings a running timer to 0 exactly from 1. -/
theorem entryLoad_pred_eq_zero {chg : Bool} {d : TimerWord} :
    entryLoad chg d - 1 = 0 ↔ (if chg then 500 else d.toNat) = 1 := by
  rw [sub_eq_zero, ← BitVec.toNat_inj, entryLoad_toNat]
  rfl

/-- The end of a tick that keeps the state (20_memory R60). -/
theorem endTick_stay {t : Tick} (h : t.next = t.regs.state) :
    endTick t = { t.regs with chg := false, ticks := t.regs.ticks + 1 } := by
  rw [endTick, chgFlag_eq, h, decide_eq_false (not_not_intro rfl)]

/-- The end of a tick that leaves the state (20_memory R60). -/
theorem endTick_leave {t : Tick} (h : t.next ≠ t.regs.state) :
    endTick t = { t.regs with state := t.next, chg := true, ticks := t.regs.ticks + 1 } := by
  rw [endTick, chgFlag_eq, decide_eq_true h]

/-- The end of a tick that returns to idle from another state (43_output_stage R170). -/
theorem endTick_retIdle {t : Tick} (h : t.regs.state ≠ 0) :
    endTick (retIdle t) = { t.regs with
      thrust := 0, dur := 0, level := 0, duty := 0, state := 0, chg := true, ticks := t.regs.ticks + 1 } :=
  endTick_leave (t := retIdle t) h.symm

end Sys2Proof.Machine
end

section
/-! SUPPORT. The whole next state of each tick operation (44_state_machine R182 to R198): its body path by path, then the end of
the tick, which stays or leaves. -/

namespace Sys2Proof.Machine

/-- Settles O22: RDY.FEED is FEEDBOTH in a tick that stays. -/
theorem rdyFeedResult : Obligations.RdyFeedResult := by
  intro thr tim s _
  rw [exec_eq_runTick _ rfl, runTick_eq, opBody, endTick_stay rfl]
  simp only [feedBoth_eq]
  rfl

/-- Settles O23: RDY.ARM is the arm action in a tick that leaves for THRUST_BTN_WAIT. -/
theorem rdyArmResult : Obligations.RdyArmResult := by
  intro thr tim s hs
  have hne : stateCode .thrustBtnWait ≠ s.state := hs ▸ by decide
  rw [exec_eq_runTick _ rfl, runTick_eq, opBody, armRun_eq, endTick_leave hne]
  rfl

/-- Settles O26: THR.STOP is RETIDLE, in a state other than READY_BTN_WAIT. -/
theorem thrStopResult : Obligations.ThrStopResult := by
  intro thr tim s hs
  exact congrArg Host.Outcome.next (endTick_retIdle (t := beginTick s) (hs ▸ by decide))

/-- Settles O28: TDN.STOP is RETIDLE, in a state other than READY_BTN_WAIT. -/
theorem tdnStopResult : Obligations.TdnStopResult := by
  intro thr tim s hs
  exact congrArg Host.Outcome.next (endTick_retIdle (t := beginTick s) (hs ▸ by decide))

/-- Settles O25: the duration runs out exactly from 0 and 1, and then the run returns to idle; else the tick stays. -/
theorem thrRunResult : Obligations.ThrRunResult := by
  intro thr tim s hs
  have h0 : s.state ≠ 0 := hs ▸ by decide
  rw [exec_eq_runTick _ rfl, runTick_eq, opBody]
  by_cases hd : s.dur.toNat ≤ 1
  · rw [if_pos hd, thrustRunBody_expired _ ((satdec_eq_zero _).2 hd), endTick_retIdle h0]
    rfl
  · rw [if_neg hd, thrustRunBody_running _ (mt (satdec_eq_zero _).1 hd), endTick_stay rfl, satdec_eq_ofNat]
    rfl

/-- Settles O27: the level is compared first; a depleted one returns to idle, else the subtraction is taken and the tick stays. -/
theorem tdnRampResult : Obligations.TdnRampResult := by
  intro thr tim s hs
  have h0 : s.state ≠ 0 := hs ▸ by decide
  rw [exec_eq_runTick _ rfl, runTick_eq, opBody]
  by_cases hl : s.level.toNat ≤ 32
  · rw [if_pos hl, rampStep_done _ hl, endTick_retIdle h0]
    rfl
  · rw [if_neg hl, rampStep_running _ (Nat.lt_of_not_le hl), rampSubtract_eq _ (Nat.lt_of_not_le hl), endTick_stay rfl]
    rfl

/-- Settles O21: the timer after the entry action decides between a feed that stays and the advance to READY. -/
theorem rbwTickResult : Obligations.RbwTickResult := by
  intro btn thr tim s hs timer
  rw [exec_eq_runTick _ rfl, runTick_eq, opBody]
  by_cases ht : 0 < timer
  · have hrun : entryLoad s.chg s.dbt0 ≠ 0 := entryLoad_ne_zero ht
    rw [if_pos ht, readyWaitBody_running _ _ hrun, endTick_stay rfl, feedBoth_eq]
    simp only [beginTick_regs, entryLoad_pred hrun, timer]
  · have hdone : entryLoad s.chg s.dbt0 = 0 := (entryLoad_eq_zero _ _).2 (Nat.eq_zero_of_not_pos ht)
    have hne : stateCode .ready ≠ s.state := hs ▸ by decide
    rw [if_neg ht, readyWaitBody_advance _ _ hdone, endTick_leave hne]
    simp only [beginTick_regs, entryLoad_eq_self hdone]
    rfl

/-- Settles O24: the timer after the entry action, then the duration, then the timer less one decide the path. -/
theorem tbwTickResult : Obligations.TbwTickResult := by
  intro btn thr tim s hs timer
  have hthrust : stateCode .thrust ≠ s.state := hs ▸ by decide
  have hdown : stateCode .thrustDown ≠ s.state := hs ▸ by decide
  rw [exec_eq_runTick _ rfl, runTick_eq, opBody]
  by_cases ht : 0 < timer
  · have hrun : entryLoad s.chg s.dbt1 ≠ 0 := entryLoad_ne_zero ht
    rw [if_pos ht]
    by_cases hd : s.dur.toNat ≤ 1
    · have hdur : satdec s.dur = 0 := (satdec_eq_zero _).2 hd
      rw [if_pos hd, thrustWaitBody_exhausted _ hrun hdur, endTick_leave hdown]
      simp only [beginTick_regs, hdur, entryLoad_pred hrun, timer]
      rfl
    have hdur : satdec s.dur ≠ 0 := mt (satdec_eq_zero _).1 hd
    rw [if_neg hd]
    by_cases h1 : timer = 1
    · have hend : entryLoad s.chg s.dbt1 - 1 = 0 := entryLoad_pred_eq_zero.2 h1
      rw [if_pos h1, thrustWaitBody_elapsed _ hrun hdur hend, endTick_leave hthrust]
      simp only [beginTick_regs, hend, satdec_eq_ofNat]
      rfl
    · rw [if_neg h1, thrustWaitBody_running _ hrun hdur (mt entryLoad_pred_eq_zero.1 h1), endTick_stay rfl]
      simp only [beginTick_regs, entryLoad_pred hrun, satdec_eq_ofNat, timer]
  · have hdone : entryLoad s.chg s.dbt1 = 0 := (entryLoad_eq_zero _ _).2 (Nat.eq_zero_of_not_pos ht)
    rw [if_neg ht, thrustWaitBody_leave _ hdone, endTick_leave hthrust]
    simp only [beginTick_regs, entryLoad_eq_self hdone]
    rfl

end Sys2Proof.Machine
end

section
/-! SUPPORT. Decoding and encoding as inverse maps (30_encoding R91, R94, R95, R98): from an instruction to its tick word and back,
from a word to its operation and back, and which words are tick operations. -/

namespace Sys2Proof

/-- Settles O1: the ST and B fields of each row's tick word select that row again, and the other fields are read back. -/
theorem decodeEncodeRoundTrip : Obligations.DecodeEncodeRoundTrip := by
  intro i
  cases i with
  | reservedSt67 low btn thr tim =>
    rw [encode, decode_tickWord]
    cases low <;> rfl
  | _ => exact decode_tickWord _ _

/-- The five legal codes (30_encoding R94). -/
theorem stateCode_legal_cases : ∀ st : StateCode, st.toNat ≤ 4 → st = 0 ∨ st = 1 ∨ st = 2 ∨ st = 3 ∨ st = 4 := by decide

/-- The three reserved codes (30_encoding R98). -/
theorem stateCode_reserved_cases : ∀ st : StateCode, ¬ st.toNat ≤ 4 → st = 5 ∨ st = 6 ∨ st = 7 := by decide

/-- Encoding gives back the ST field of each code, and B both where it selects the row and where it is a field of it
(30_encoding R94, R98). -/
theorem encode_decode_tickWord (st : StateCode) (w : InputWord) : encode (decode (tickWord st w)) = tickWord st w := by
  rw [decode_tickWord]
  obtain ⟨btn, thr, tim⟩ := w
  rcases stateCode_cases st with rfl | rfl | rfl | rfl | rfl | rfl | rfl | rfl
  · rfl
  · cases btn <;> rfl
  · rfl
  · cases btn <;> rfl
  · cases btn <;> rfl
  all_goals rfl

/-- Settles O2: every word is the tick word of its fields, and each ST code with its B bit encodes back to itself. -/
theorem encodeDecodeRoundTrip : Obligations.EncodeDecodeRoundTrip := by
  intro t
  rw [← tickWord_of_fields t]
  exact encode_decode_tickWord _ _

/-- A tick word encodes exactly the instruction that it decodes to (30_encoding R91, R95). -/
theorem encode_eq_iff (i : Instr) (t : TickBits) : encode i = t ↔ i = decode t :=
  ⟨fun h => h ▸ (decodeEncodeRoundTrip i).symm, fun h => h ▸ encodeDecodeRoundTrip t⟩

/-- A word whose STATE code is reserved is no tick operation (30_encoding R98). -/
theorem decode_tickWord_not_wellFormed (st : StateCode) (w : InputWord) (hst : ¬ st.toNat ≤ 4) :
    ¬ (decode (tickWord st w)).WellFormed := by
  rw [decode_tickWord]
  rcases stateCode_reserved_cases st hst with rfl | rfl | rfl <;> exact Bool.false_ne_true

/-- Settles O6: the five legal codes select an operation whatever the input word, and the three reserved ones none. -/
theorem legalStateDecodesToOperation : Obligations.LegalStateDecodesToOperation := fun st w =>
  ⟨not_imp_not.1 (decode_tickWord_not_wellFormed st w), Machine.decode_tickWord_wellFormed st w⟩

/-- Settles O5: the decoder on each word that 95_test_vectors section 4 and the model's choice on wide numbers name. -/
theorem decodeOfSpecWords : Obligations.DecodeOfSpecWords := by
  unfold Obligations.DecodeOfSpecWords
  decide

end Sys2Proof
end

section
/-! SUPPORT. What a step takes from outside: the pulse, the placed tick word, the loaded trace and RST (20_memory R60, R61, R67;
30_encoding R100; 70_reset_and_hazards R250). -/

namespace Sys2Proof.Machine

/-- With no pulse to come a step changes nothing (20_memory R61). -/
theorem step_no_pulse (s : State) (h : s.inputs = []) : step s = .next s := by
  rw [step, takePulse, h]

/-- A pulse with RST resets every register and is used up (70_reset_and_hazards R250). -/
theorem step_reset (s : State) (w : InputWord) (rest : List TickInput) (h : s.inputs = ⟨true, w⟩ :: rest) :
    step s = .next (resetRegs (afterPulse s rest)) := by
  rw [step, takePulse, h]
  rfl

/-- Settles O8: a pulse without RST runs the decoded operation. -/
theorem stepRunsDecodedOperation : Obligations.StepRunsDecodedOperation := step_eq_exec

/-- The input word of a tick word has the fields of the tick word (30_encoding R91, R92). -/
theorem inputWordOf_low (t : TickBits) :
    inputWordOf (t.extractLsb' 0 17) = ⟨t.getLsbD 16, t.extractLsb' 8 8, t.extractLsb' 0 8⟩ := by
  rw [← tickWord_of_fields t, tickWord_inputBits, inputWordOf_inputBits, tickWord_btn, tickWord_thr, tickWord_tim]

/-- A placed tick word is the one that the next step runs (30_encoding R90, R91). -/
theorem step_placeTickWord (s : State) (t : TickBits) :
    step (placeTickWord s t) = exec (decode t) { s with state := t.extractLsb' 17 3 } := by
  rw [step_eq_exec (placeTickWord s t) _ s.inputs rfl, placeTickWord_state, inputWordOf_low, tickWord_of_fields]
  rfl

/-- Settles O9: no pulse, no change; a number below 2^20 is placed as it is. -/
theorem placedWordRunsNext : Obligations.PlacedWordRunsNext := by
  refine ⟨step_no_pulse, fun s w hw => ?_⟩
  rw [State.withFetchWord, Nat.mod_eq_of_lt (hw.trans (by decide)), step_placeTickWord]

/-- Settles O13: the tick word that STATE and the ports form encodes one instruction only, which a legal STATE makes an operation
that answers a next state. -/
theorem stepIsTotal : Obligations.StepIsTotal := by
  intro s w rest hs h
  refine ⟨⟨_, decode_tickWord_wellFormed s.state w hs, fun j => encode_eq_iff j _⟩, _,
    step_eq_runTick s w rest hs h, fun u => ?_⟩
  rw [step_eq_runTick s w rest hs h, runTick_eq, Host.Outcome.next.injEq, eq_comm]

/-- A run of pulses that all have RST asserted ends in the reset state, with the pulses after them to come
(70_reset_and_hazards R250). -/
theorem runs_reset (p : TickInput) (ps rest : List TickInput) (s : State) (hrst : ∀ q ∈ p :: ps, q.rst = true)
    (h : s.inputs = p :: ps ++ rest) : runs (p :: ps).length s = .next { State.reset with inputs := rest } := by
  induction ps generalizing p s with
  | nil =>
    obtain ⟨rst, w⟩ := p
    obtain rfl : rst = true := hrst _ List.mem_cons_self
    rw [List.length_cons, runs_succ _ _ _ (step_reset s w rest h)]
    rfl
  | cons q ps ih =>
    obtain ⟨rst, w⟩ := p
    obtain rfl : rst = true := hrst _ List.mem_cons_self
    rw [List.length_cons, runs_succ _ _ _ (step_reset s w (q :: ps ++ rest) h)]
    exact ih q _ (fun r hr => hrst r (List.mem_cons_of_mem _ hr)) rfl

/-- Settles O11: each pulse with RST resets the registers again and leaves the later pulses. -/
theorem resetHoldsWhileAsserted : Obligations.ResetHoldsWhileAsserted := by
  intro s ps rest hne hrst h
  obtain ⟨p, ps, rfl⟩ := List.exists_cons_of_ne_nil hne
  exact runs_reset p ps rest s hrst h

/-- Settles O58: the words of a trace by the statements' recursion; the first pulse of a loaded trace is the one that the step
takes, and the rest of the trace stays loaded. -/
theorem loadedTraceIsTakenInOrder : Obligations.LoadedTraceIsTakenInOrder := by
  refine ⟨fun _ _ _ _ => rfl, fun n body rest => ?_, fun _ _ => rfl, fun b thr tim rest s _ => step_eq_exec _ _ _ rfl⟩
  rw [traceWords, traceWords, List.replicate_succ, List.flatten_cons, List.append_assoc]

end Sys2Proof.Machine
end

section
/-! SUPPORT. One tick as a relation: a constructor for each path of the eight tick operations (30_encoding R96; 44_state_machine R182
to R198), with its condition and its whole next state. `step_eq_next_iff` ties it to the step; the laws of the state machine are
case analyses on it. -/

namespace Sys2Proof.Machine

/-- A debounce timer after the entry action of a wait state, as a number (44_state_machine R181). -/
def waitLeft (chg : Bool) (timer : TimerWord) : Nat := if chg then 500 else timer.toNat

@[simp] theorem waitLeft_entry (timer : TimerWord) : waitLeft true timer = 500 := rfl
@[simp] theorem waitLeft_running (timer : TimerWord) : waitLeft false timer = timer.toNat := rfl

/-- `TickPath s w t`: a tick in state `s` with the input word `w` leaves the state `t`. -/
inductive TickPath (s : State) (w : InputWord) : State → Prop
  /-- READY_BTN_WAIT, the timer running (R182). -/
  | readyWait (hst : s.state = 0) (htimer : 0 < waitLeft s.chg s.dbt0) :
      TickPath s w { feedBoth w s with
        dbt0 := BitVec.ofNat 9 (waitLeft s.chg s.dbt0 - 1), chg := false, ticks := s.ticks + 1 }
  /-- READY_BTN_WAIT, the timer at 0 (R182). -/
  | readyWaitDone (hst : s.state = 0) (htimer : waitLeft s.chg s.dbt0 = 0) :
      TickPath s w { s with state := 1, chg := true, ticks := s.ticks + 1 }
  /-- READY, the button released (R184). -/
  | readyFeed (hst : s.state = 1) (hbtn : w.btn = false) :
      TickPath s w { feedBoth w s with chg := false, ticks := s.ticks + 1 }
  /-- READY, the button pressed (R186). -/
  | arm (hst : s.state = 1) (hbtn : w.btn = true) :
      TickPath s w { s with
        thrust := getFilter .throttle s, dur := runDur (getFilter .time s), duty := getFilter .throttle s,
        level := thrustLevel (getFilter .throttle s), state := 2, chg := true, ticks := s.ticks + 1 }
  /-- THRUST_BTN_WAIT, the timer found at 0 (R188). -/
  | thrustWaitDone (hst : s.state = 2) (htimer : waitLeft s.chg s.dbt1 = 0) :
      TickPath s w { s with state := 3, chg := true, ticks := s.ticks + 1 }
  /-- THRUST_BTN_WAIT, the duration running out (R188, R190). -/
  | exhausted (hst : s.state = 2) (htimer : 0 < waitLeft s.chg s.dbt1) (hdur : s.dur.toNat ≤ 1) :
      TickPath s w { s with
        dbt1 := BitVec.ofNat 9 (waitLeft s.chg s.dbt1 - 1), dur := 0, state := 4, chg := true, ticks := s.ticks + 1 }
  /-- THRUST_BTN_WAIT, the timer running out with time left (R188). -/
  | elapsed (hst : s.state = 2) (htimer : waitLeft s.chg s.dbt1 = 1) (hdur : 1 < s.dur.toNat) :
      TickPath s w { s with dbt1 := 0, dur := satdec s.dur, state := 3, chg := true, ticks := s.ticks + 1 }
  /-- THRUST_BTN_WAIT, the wait going on (R188). -/
  | thrustWait (hst : s.state = 2) (htimer : 1 < waitLeft s.chg s.dbt1) (hdur : 1 < s.dur.toNat) :
      TickPath s w { s with
        dbt1 := BitVec.ofNat 9 (waitLeft s.chg s.dbt1 - 1), dur := satdec s.dur, chg := false, ticks := s.ticks + 1 }
  /-- THRUST, the run going on (R192). -/
  | run (hst : s.state = 3) (hbtn : w.btn = false) (hdur : 1 < s.dur.toNat) :
      TickPath s w { s with dur := satdec s.dur, chg := false, ticks := s.ticks + 1 }
  /-- THRUST_DOWN, the ramp going on (R196). -/
  | ramp (hst : s.state = 4) (hbtn : w.btn = false) (hlevel : 32 < s.level.toNat) :
      TickPath s w { s with
        level := BitVec.ofNat 16 (s.level.toNat - 32), duty := BitVec.ofNat 8 ((s.level.toNat - 32) / 256),
        chg := false, ticks := s.ticks + 1 }
  /-- The return to idle, by the button, an expiry or the end of a ramp (R192 to R198; 43_output_stage R170). -/
  | idle (hcall : CallsRetIdle s.state w.btn s) :
      TickPath s w { s with
        thrust := 0, dur := 0, level := 0, duty := 0, state := 0, chg := true, ticks := s.ticks + 1 }

/-- The tick operation of STATE and the ports, from what their word decodes to. -/
theorem exec_decode_eq {s t : State} {w : InputWord} {st : StateCode} {i : Instr} (hst : s.state = st)
    (hdec : decode (tickWord st w) = i) (h : exec i s = .next t) : exec (decode (tickWord s.state w)) s = .next t := by
  rw [hst, hdec, h]

/-- The operation that STATE and BTN select takes the path whose condition holds (30_encoding R95): each constructor is a branch of
that operation's whole next state. -/
theorem exec_of_tickPath {s t : State} {w : InputWord} (h : TickPath s w t) :
    exec (decode (tickWord s.state w)) s = .next t := by
  obtain ⟨btn, thr, tim⟩ := w
  cases h with
  | readyWait hst htimer =>
    rw [feedBoth_eq]
    exact exec_decode_eq hst (decode_tickWord _ _) ((if_pos htimer).mp (rbwTickResult btn thr tim s hst))
  | readyWaitDone hst htimer =>
    exact exec_decode_eq hst (decode_tickWord _ _) ((if_neg htimer.not_gt).mp (rbwTickResult btn thr tim s hst))
  | readyFeed hst hbtn =>
    obtain rfl : btn = false := hbtn
    rw [feedBoth_eq]
    exact exec_decode_eq hst (decode_tickWord _ _) (rdyFeedResult thr tim s hst)
  | arm hst hbtn =>
    obtain rfl : btn = true := hbtn
    have hleave : (armRun (beginTick s)).next ≠ s.state := hst ▸ show (2 : StateCode) ≠ 1 by decide
    exact exec_decode_eq hst (decode_tickWord _ _) (congrArg Host.Outcome.next (endTick_leave hleave))
  | thrustWaitDone hst htimer =>
    exact exec_decode_eq hst (decode_tickWord _ _) ((if_neg htimer.not_gt).mp (tbwTickResult btn thr tim s hst))
  | exhausted hst htimer hdur =>
    exact exec_decode_eq hst (decode_tickWord _ _)
      ((if_pos hdur).mp ((if_pos htimer).mp (tbwTickResult btn thr tim s hst)))
  | elapsed hst htimer hdur =>
    have hpos : 0 < waitLeft s.chg s.dbt1 := htimer ▸ Nat.one_pos
    rw [satdec_eq_ofNat]
    exact exec_decode_eq hst (decode_tickWord _ _)
      ((if_pos htimer).mp ((if_neg hdur.not_ge).mp ((if_pos hpos).mp (tbwTickResult btn thr tim s hst))))
  | thrustWait hst htimer hdur =>
    have hpos : 0 < waitLeft s.chg s.dbt1 := Nat.zero_lt_of_lt htimer
    rw [satdec_eq_ofNat]
    exact exec_decode_eq hst (decode_tickWord _ _)
      ((if_neg htimer.ne').mp ((if_neg hdur.not_ge).mp ((if_pos hpos).mp (tbwTickResult btn thr tim s hst))))
  | run hst hbtn hdur =>
    obtain rfl : btn = false := hbtn
    rw [satdec_eq_ofNat]
    exact exec_decode_eq hst (decode_tickWord _ _) ((if_neg hdur.not_ge).mp (thrRunResult thr tim s hst))
  | ramp hst hbtn hlevel =>
    obtain rfl : btn = false := hbtn
    exact exec_decode_eq hst (decode_tickWord _ _) ((if_neg hlevel.not_ge).mp (tdnRampResult thr tim s hst))
  | idle hcall =>
    rcases hcall with ⟨hst, hstop⟩ | ⟨hst, hstop⟩ <;> refine exec_decode_eq hst (decode_tickWord _ _) ?_ <;> cases btn
    · exact (if_pos (hstop.resolve_left Bool.false_ne_true)).mp (thrRunResult thr tim s hst)
    · exact thrStopResult thr tim s hst
    · exact (if_pos (hstop.resolve_left Bool.false_ne_true)).mp (tdnRampResult thr tim s hst)
    · exact tdnStopResult thr tim s hst

/-- In a legal state every tick takes a path. -/
theorem exists_tickPath (s : State) (w : InputWord) (hs : s.state.toNat ≤ 4) : ∃ t, TickPath s w t := by
  rcases stateCode_legal_cases s.state hs with hst | hst | hst | hst | hst
  · rcases Nat.eq_zero_or_pos (waitLeft s.chg s.dbt0) with htimer | htimer
    · exact ⟨_, .readyWaitDone hst htimer⟩
    · exact ⟨_, .readyWait hst htimer⟩
  · cases hbtn : w.btn with
    | false => exact ⟨_, .readyFeed hst hbtn⟩
    | true => exact ⟨_, .arm hst hbtn⟩
  · rcases Nat.eq_zero_or_pos (waitLeft s.chg s.dbt1) with htimer | htimer
    · exact ⟨_, .thrustWaitDone hst htimer⟩
    rcases Nat.lt_or_ge 1 s.dur.toNat with hdur | hdur
    · rcases Nat.eq_or_lt_of_le htimer with htimer | htimer
      · exact ⟨_, .elapsed hst htimer.symm hdur⟩
      · exact ⟨_, .thrustWait hst htimer hdur⟩
    · exact ⟨_, .exhausted hst htimer hdur⟩
  · by_cases hcall : w.btn = true ∨ s.dur.toNat ≤ 1
    · exact ⟨_, .idle (.inl ⟨hst, hcall⟩)⟩
    · obtain ⟨hbtn, hdur⟩ := not_or.1 hcall
      exact ⟨_, .run hst (Bool.eq_false_of_not_eq_true hbtn) (Nat.lt_of_not_le hdur)⟩
  · by_cases hcall : w.btn = true ∨ s.level.toNat ≤ 32
    · exact ⟨_, .idle (.inr ⟨hst, hcall⟩)⟩
    · obtain ⟨hbtn, hlevel⟩ := not_or.1 hcall
      exact ⟨_, .ramp hst (Bool.eq_false_of_not_eq_true hbtn) (Nat.lt_of_not_le hlevel)⟩

/-- A tick that takes a path steps to the state of that path. -/
theorem TickPath.step_eq {s t : State} {w : InputWord} {rest : List TickInput} (hp : TickPath (afterPulse s rest) w t)
    (h : TakesTick s w rest) : step s = .next t :=
  (step_eq_exec s w rest h).trans (exec_of_tickPath hp)

/-- In a legal state a tick completes, by one of the paths (60_exceptions R220). -/
theorem exists_step_tickPath {s : State} {w : InputWord} {rest : List TickInput} (hs : s.state.toNat ≤ 4)
    (h : TakesTick s w rest) : ∃ t, step s = .next t ∧ TickPath (afterPulse s rest) w t := by
  obtain ⟨t, hp⟩ := exists_tickPath (afterPulse s rest) w hs
  exact ⟨t, hp.step_eq h, hp⟩

/-- A step at a pulse without RST answers a next state exactly by a path: in a reserved state it is refused. -/
theorem step_eq_next_iff {s t : State} {w : InputWord} {rest : List TickInput} (h : TakesTick s w rest) :
    step s = .next t ↔ TickPath (afterPulse s rest) w t := by
  refine ⟨fun hstep => ?_, fun hp => hp.step_eq h⟩
  have hwf := wellFormed_of_exec_next ((step_eq_exec s w rest h).symm.trans hstep)
  obtain ⟨u, hu, hp⟩ := exists_step_tickPath ((legalStateDecodesToOperation s.state w).1 hwf) h
  rw [hu] at hstep
  cases hstep
  exact hp

/-- What a step that answers a next state can do: nothing without a pulse, RESET, or a path of a tick (20_memory R60, R61, R67). -/
theorem step_next_cases {s t : State} (h : step s = .next t) :
    (s.inputs = [] ∧ t = s) ∨ (∃ rest, t = resetRegs (afterPulse s rest)) ∨
    ∃ w rest, TakesTick s w rest ∧ TickPath (afterPulse s rest) w t := by
  rcases step_cases s with ⟨hnil, hstep⟩ | ⟨w, rest, _, hstep⟩ | ⟨w, rest, hin, _⟩
  · cases hstep.symm.trans h
    exact .inl ⟨hnil, rfl⟩
  · cases hstep.symm.trans h
    exact .inr (.inl ⟨rest, rfl⟩)
  · exact .inr (.inr ⟨w, rest, hin, (step_eq_next_iff hin).1 h⟩)

/-- From a legal state every step answers a next state (44_state_machine R208). -/
theorem exists_step {s : State} (hs : s.state.toNat ≤ 4) : ∃ t, step s = .next t := by
  rcases step_cases s with ⟨_, hstep⟩ | ⟨_, _, _, hstep⟩ | ⟨w, rest, hin, _⟩
  · exact ⟨_, hstep⟩
  · exact ⟨_, hstep⟩
  · obtain ⟨t, hstep, _⟩ := exists_step_tickPath hs hin
    exact ⟨t, hstep⟩

end Sys2Proof.Machine
end

section
/-! SUPPORT. The global invariants (10_state section 11), each carried along the paths of a tick, then by every step. -/

namespace Sys2Proof.Machine

/-- What holds at reset, whatever pulses are to come, and is carried along every path of a tick, is kept by every step. -/
theorem step_keeps {I : State → Prop} (hin : ∀ s ins, I s → I { s with inputs := ins }) (hreset : I State.reset)
    (htick : ∀ s w t, I s → TickPath s w t → I t) (s t : State) (hs : I s) (h : step s = .next t) : I t := by
  rcases step_next_cases h with ⟨_, rfl⟩ | ⟨rest, rfl⟩ | ⟨w, rest, _, hp⟩
  · exact hs
  · exact hin _ rest hreset
  · exact htick _ w t (hin s rest hs) hp

/-- The sums after FEEDBOTH, as numbers (40_filter R121, R123). -/
theorem feedBoth_toNat (w : InputWord) (s : State) :
    (feedBoth w s).fa0.toNat = s.fa0.toNat + w.sThr.toNat - s.fa0.toNat / 1024 ∧
    (feedBoth w s).fa1.toNat = s.fa1.toNat + w.sTime.toNat - s.fa1.toNat / 1024 :=
  ⟨filterNext_toNat s.fa0 w.sThr, filterNext_toNat s.fa1 w.sTime⟩

theorem sumsInRange_reset : SumsInRange State.reset := by
  unfold SumsInRange
  decide

theorem SumsInRange.feedBoth {s : State} (h : SumsInRange s) (w : InputWord) : SumsInRange (feedBoth w s) :=
  ⟨readSum_feed_le .throttle w.sThr s h.1, readSum_feed_le .time w.sTime s h.2⟩

/-- The two feeding paths keep the range, and the others keep the sums (10_state R22). -/
theorem SumsInRange.tick (s : State) (w : InputWord) (t : State) (h : SumsInRange s) (hp : TickPath s w t) :
    SumsInRange t := by
  cases hp with
  | readyWait | readyFeed => exact h.feedBoth w
  | _ => exact h

theorem dutyIsTopByte_reset : DutyIsTopByte State.reset := rfl

/-- DUTY and LEVEL are written together, by the arm, the ramp and the return to idle (10_state R28). -/
theorem DutyIsTopByte.tick (s : State) (w : InputWord) (t : State) (h : DutyIsTopByte s) (hp : TickPath s w t) :
    DutyIsTopByte t := by
  cases hp with
  | arm =>
    rw [DutyIsTopByte, thrustLevel_toNat, Nat.mul_div_cancel _ (by decide)]
  | ramp =>
    have hlevel := s.level.isLt
    simp only [DutyIsTopByte, BitVec.toNat_ofNat]
    omega
  | idle => exact show (0 : Byte).toNat = (0 : LevelWord).toNat / 256 from rfl
  | _ => exact h

theorem idleIsOff_reset : IdleIsOff State.reset := fun _ => ⟨rfl, rfl, rfl, rfl⟩

/-- A state other than READY_BTN_WAIT and READY meets `IdleIsOff`. -/
theorem idleIsOff_of_state {t : State} {st : StateCode} (ht : t.state = st) (h0 : st ≠ 0) (h1 : st ≠ 1) : IdleIsOff t :=
  fun h => (h.elim (ht ▸ h0) (ht ▸ h1)).elim

/-- A tick between the idle states keeps the zeros, and a return to idle writes them (10_state R41, 43_output_stage R170). -/
theorem IdleIsOff.tick (s : State) (w : InputWord) (t : State) (h : IdleIsOff s) (hp : TickPath s w t) : IdleIsOff t := by
  cases hp with
  | readyWait | readyFeed => exact h
  | readyWaitDone hst => exact fun _ => h (.inl hst)
  | arm => exact idleIsOff_of_state (st := 2) rfl (by decide) (by decide)
  | thrustWaitDone => exact idleIsOff_of_state (st := 3) rfl (by decide) (by decide)
  | exhausted => exact idleIsOff_of_state (st := 4) rfl (by decide) (by decide)
  | elapsed => exact idleIsOff_of_state (st := 3) rfl (by decide) (by decide)
  | thrustWait hst | run hst | ramp hst => exact idleIsOff_of_state hst (by decide) (by decide)
  | idle => exact fun _ => ⟨rfl, rfl, rfl, rfl⟩

theorem timersInRange_reset : TimersInRange State.reset := by
  unfold TimersInRange
  decide

/-- A timer in range is at most 500 after the entry action. -/
theorem waitLeft_le {timer : TimerWord} (chg : Bool) (h : timer.toNat ≤ 499) : waitLeft chg timer ≤ 500 := by
  cases chg with
  | false => exact h.trans (by decide)
  | true => exact Nat.le_refl 500

/-- A running timer less one is at most 499, and fits its register. -/
theorem waitLeft_pred_toNat {n : Nat} (h : n ≤ 500) : (BitVec.ofNat 9 (n - 1)).toNat = n - 1 := by
  rw [BitVec.toNat_ofNat]
  omega

theorem waitLeft_pred_le {n : Nat} (h : n ≤ 500) : (BitVec.ofNat 9 (n - 1)).toNat ≤ 499 := by
  rw [waitLeft_pred_toNat h]
  omega

/-- A timer is loaded with 500 and decremented in one tick, and decremented in the others (44_state_machine R181). -/
theorem TimersInRange.tick (s : State) (w : InputWord) (t : State) (h : TimersInRange s) (hp : TickPath s w t) :
    TimersInRange t := by
  obtain ⟨h0, h1⟩ := h
  cases hp with
  | readyWait => exact ⟨waitLeft_pred_le (waitLeft_le _ h0), h1⟩
  | exhausted | thrustWait => exact ⟨h0, waitLeft_pred_le (waitLeft_le _ h1)⟩
  | elapsed => exact ⟨h0, Nat.zero_le _⟩
  | _ => exact ⟨h0, h1⟩

/-- Settles O44: reset, the paths of a tick, and the number of a filter's output. -/
theorem filterSumsStayInRange : Obligations.FilterSumsStayInRange := by
  refine ⟨sumsInRange_reset, step_keeps (fun _ _ h => h) sumsInRange_reset SumsInRange.tick,
    fun s c h => ⟨?_, getFilter_toNat c s⟩⟩
  obtain ⟨h0, h1⟩ := h
  cases c with
  | throttle => exact Nat.div_le_of_le_mul h0
  | time => exact Nat.div_le_of_le_mul h1

/-- Settles O45: reset and the paths of a tick. -/
theorem dutyStaysTopByte : Obligations.DutyStaysTopByte :=
  ⟨dutyIsTopByte_reset, step_keeps (fun _ _ h => h) dutyIsTopByte_reset DutyIsTopByte.tick⟩

end Sys2Proof.Machine
end

section
/-! SUPPORT. The invariant of the whole machine (10_state section 11): the items that need one another, the step that keeps them all,
and what follows for runs from reset (10_state R41) and for the cycle of the states (44_state_machine section 8). -/

namespace Sys2Proof.Machine

/-- In THRUST_BTN_WAIT the duration exceeds the timer after the entry action. -/
theorem waitHasTime_iff (s : State) : WaitHasTime s ↔ (s.state = 2 → waitLeft s.chg s.dbt1 < s.dur.toNat) := by
  unfold WaitHasTime waitLeft
  cases s.chg <;> rfl

/-- In THRUST_BTN_WAIT the duration stays ahead of the timer: an arm gives it at least 15000 ticks (41_run_duration R140), and a tick
takes one from each. -/
theorem WaitHasTime.tick (s : State) (w : InputWord) (t : State) (htimers : TimersInRange s) (h : WaitHasTime s)
    (hp : TickPath s w t) : WaitHasTime t := by
  rw [waitHasTime_iff] at h
  cases hp with
  | arm => exact fun _ => Nat.lt_of_lt_of_le (by decide) (le_runDur_toNat (getFilter .time s))
  | thrustWait hst htimer =>
    have hahead := h hst
    rw [waitHasTime_iff]
    simp only [waitLeft_running, waitLeft_pred_toNat (waitLeft_le s.chg htimers.2), satdec_toNat]
    omega
  | readyWait hst | readyFeed hst | run hst | ramp hst => simp [WaitHasTime, hst]
  | readyWaitDone | thrustWaitDone | exhausted | elapsed | idle => simp [WaitHasTime]

/-- THRUST is entered, and kept, with a tick left (44_state_machine R188, R192). -/
theorem ThrustHasTime.tick (s : State) (w : InputWord) (t : State) (hwait : WaitHasTime s) (hp : TickPath s w t) :
    ThrustHasTime t := by
  rw [waitHasTime_iff] at hwait
  cases hp with
  | thrustWaitDone hst => exact fun _ => Nat.zero_lt_of_lt (hwait hst)
  | elapsed hst htimer hdur | run hst hbtn hdur =>
    refine fun _ => ?_
    simp only [satdec_toNat]
    omega
  | readyWait hst | readyFeed hst | thrustWait hst | ramp hst => simp [ThrustHasTime, hst]
  | readyWaitDone | arm | exhausted | idle => simp [ThrustHasTime]

/-- THRUST_DOWN is not entered: the wait does not exhaust its duration (44_state_machine R202). -/
theorem NotThrustDown.tick (s : State) (w : InputWord) (t : State) (hwait : WaitHasTime s) (h : NotThrustDown s)
    (hp : TickPath s w t) : NotThrustDown t := by
  rw [waitHasTime_iff] at hwait
  cases hp with
  | exhausted hst htimer hdur => exact absurd (hwait hst) (by omega)
  | ramp hst => exact absurd hst h
  | readyWait | readyFeed | thrustWait | run => exact h
  | readyWaitDone | arm | thrustWaitDone | elapsed | idle => simp [NotThrustDown]

/-- The arm writes THRUST, LEVEL and DUTY together, and the rest of the run leaves them (44_state_machine R186). -/
theorem RunHoldsDuty.tick (s : State) (w : InputWord) (t : State) (h : RunHoldsDuty s) (hp : TickPath s w t) :
    RunHoldsDuty t := by
  cases hp with
  | arm => exact fun _ => ⟨rfl, thrustLevel_toNat _⟩
  | thrustWaitDone hst | elapsed hst => exact fun _ => h (.inl hst)
  | readyWait | readyFeed | thrustWait | run => exact h
  | ramp hst => simp [RunHoldsDuty, hst]
  | readyWaitDone | exhausted | idle => simp [RunHoldsDuty]

/-- A tick leaves a legal STATE (30_encoding R98). -/
theorem StateLegal.tick (s : State) (w : InputWord) (t : State) (h : StateLegal s) (hp : TickPath s w t) : StateLegal t :=
  exec_state_legal h (exec_of_tickPath hp)

/-- Settles O47: the registers' reset values, item by item. -/
theorem safeAtReset : Obligations.SafeAtReset where
  sums := sumsInRange_reset
  duty := dutyIsTopByte_reset
  idle := idleIsOff_reset
  timers := timersInRange_reset
  thrust := by simp [ThrustHasTime, State.reset]
  notDown := by simp [NotThrustDown, State.reset]
  run := by simp [RunHoldsDuty, State.reset]
  legal := by simp [StateLegal, State.reset]
  wait := by simp [WaitHasTime, State.reset]

/-- The invariant says nothing of the pulses to come. -/
theorem Safe.withInputs (s : State) (ins : List TickInput) (h : Safe s) : Safe { s with inputs := ins } := { h with }

/-- Every path of a tick keeps the invariant. -/
theorem Safe.tick (s : State) (w : InputWord) (t : State) (h : Safe s) (hp : TickPath s w t) : Safe t where
  sums := h.sums.tick s w t hp
  duty := h.duty.tick s w t hp
  idle := h.idle.tick s w t hp
  timers := h.timers.tick s w t hp
  thrust := ThrustHasTime.tick s w t h.wait hp
  notDown := h.notDown.tick s w t h.wait hp
  run := h.run.tick s w t hp
  legal := h.legal.tick s w t hp
  wait := WaitHasTime.tick s w t h.timers h.wait hp

/-- Settles O48: a legal STATE has a next state, and RESET and every path keep the invariant. -/
theorem safeKeptByStep : Obligations.SafeKeptByStep := by
  intro s hs
  obtain ⟨t, ht⟩ := exists_step hs.legal
  exact ⟨t, ht, step_keeps Safe.withInputs safeAtReset Safe.tick s t hs ht⟩

/-- The state after any number of steps from reset, whatever the pulses, meets the invariant (10_state R41). -/
theorem runs_safe (ps : List TickInput) (n : Nat) : ∃ t, runs n { State.reset with inputs := ps } = .next t ∧ Safe t :=
  runs_induction (fun _ => Safe) _ n (safeAtReset.withInputs _ ps) (fun _ u _ hu => safeKeptByStep u hu) n (Nat.le_refl n)

/-- Settles O49: the eight items are part of the invariant that every step keeps. -/
theorem globalInvariantsFromReset : Obligations.GlobalInvariantsFromReset := by
  intro ps n
  obtain ⟨t, ht, h⟩ := runs_safe ps n
  exact ⟨t, ht, h.sums, h.duty, h.idle, h.timers, h.thrust, h.notDown, h.run, h.legal⟩

/-- Settles O50: the two paths out of the cycle, an exhausted duration and a ramp, are excluded by the invariant. -/
theorem reachableCycle : Obligations.ReachableCycle := by
  intro s w rest hs h
  obtain ⟨t, hstep, hp⟩ := exists_step_tickPath hs.legal h
  have hdown : t.state ≠ 4 := ((hs.withInputs _ rest).tick _ w t hp).notDown
  refine ⟨t, hstep, ?_⟩
  cases hp with
  | readyWait hst => exact .inl ⟨hst, .inl hst⟩
  | readyWaitDone hst => exact .inl ⟨hst, .inr rfl⟩
  | readyFeed hst => exact .inr (.inl ⟨hst, .inl hst⟩)
  | arm hst => exact .inr (.inl ⟨hst, .inr rfl⟩)
  | thrustWaitDone hst | elapsed hst => exact .inr (.inr (.inl ⟨hst, .inr rfl⟩))
  | thrustWait hst => exact .inr (.inr (.inl ⟨hst, .inl hst⟩))
  | run hst => exact .inr (.inr (.inr ⟨hst, .inl hst⟩))
  | exhausted => exact absurd rfl hdown
  | ramp hst => exact absurd hst hdown
  | idle hcall =>
    obtain ⟨hst, _⟩ | ⟨hst, _⟩ := hcall
    · exact .inr (.inr (.inr ⟨hst, .inr rfl⟩))
    · exact absurd hst hs.notDown

/-- READY with both sums 0 and the button pressed: the arm's state of a run with duty 0. -/
def readyPressed : State := { State.reset with state := 1, inputs := [⟨false, ⟨true, 0, 0⟩⟩] }

theorem readyPressed_safe : Safe readyPressed where
  sums := sumsInRange_reset
  duty := dutyIsTopByte_reset
  idle := fun _ => ⟨rfl, rfl, rfl, rfl⟩
  timers := timersInRange_reset
  thrust := by simp [ThrustHasTime, readyPressed]
  notDown := by simp [NotThrustDown, readyPressed]
  run := by simp [RunHoldsDuty, readyPressed, State.reset]
  legal := by simp [StateLegal, readyPressed]
  wait := by simp [WaitHasTime, readyPressed]

/-- Settles O46: reset and the paths of a tick; a legal state with a duty is none of the two idle ones; and a throttle of 0 arms a run
with duty 0. -/
theorem idleStaysOff : Obligations.IdleStaysOff := by
  refine ⟨⟨idleIsOff_reset, step_keeps (fun _ _ h => h) idleIsOff_reset IdleIsOff.tick⟩, fun s h hs hduty => ?_,
    readyPressed, _, readyPressed_safe, rfl, rfl, rfl⟩
  have hidle : ¬ (s.state = 0 ∨ s.state = 1) := fun hst => hduty (h hst).2.2.2
  obtain ⟨h0, h1⟩ := not_or.1 hidle
  exact ((stateCode_legal_cases s.state hs).resolve_left h0).resolve_left h1

end Sys2Proof.Machine
end

section
/-! SUPPORT. The filters over many feeds (40_filter section 3, 70_reset_and_hazards section 3): one feed of a constant input relative to
its band, then the iterates by induction. -/

namespace Sys2Proof.Machine

/-- A sum that was not written reads as before (10_state R21). -/
theorem readSum_writeSum_other {c d : Channel} (h : c ≠ d) (v : SumWord) (s : State) :
    readSum (writeSum c v s) d = readSum s d := by
  cases c <;> cases d
  · exact absurd rfl h
  · rfl
  · rfl
  · exact absurd rfl h

/-- The fed sum afterwards depends on that sum and the sample alone (40_filter R121). -/
theorem readSum_feed (c : Channel) (smp : Byte) (s : State) :
    readSum (feed c smp s) c = BitVec.ofNat 18 (filterNext (readSum s c).toNat smp.toNat) := by
  rw [feed, readSum_writeSum_same]

/-- Settles O17: a feed is one write of its own sum, whose word is a function of that sum and the sample. -/
theorem filtersIndependent : Obligations.FiltersIndependent := by
  refine fun s a b => ⟨fun c d h => readSum_writeSum_other h _ s, fun c u h => ?_, rfl⟩
  rw [readSum_feed, readSum_feed, h]

/-- The sum of a channel after `n` feeds of a constant input, as a number. -/
def sumAfter (c : Channel) (v : Byte) (s : State) (n : Nat) : Nat := (readSum ((feed c v)^[n] s) c).toNat

/-- One more feed (40_filter R121). -/
theorem sumAfter_succ (c : Channel) (v : Byte) (s : State) (n : Nat) :
    sumAfter c v s (n + 1) = sumAfter c v s n + v.toNat - sumAfter c v s n / 1024 := by
  rw [sumAfter, Function.iterate_succ_apply', readSum_feed_toNat]
  rfl

/-- The output after `n` feeds is `x` where the sum is in the band of `x` (40_filter R122). -/
theorem getFilter_of_sumAfter {c : Channel} {v x : Byte} {s : State} {n : Nat} (h : sumAfter c v s n / 1024 = x.toNat) :
    getFilter c ((feed c v)^[n] s) = x :=
  BitVec.eq_of_toNat_eq ((getFilter_toNat c _).trans h)

/-- From below the band a sum rises by at least 1 a feed until it is 1024v, and does not go above (40_filter R128). -/
theorem sumAfter_rises (c : Channel) (v : Byte) (s : State) (h : (readSum s c).toNat ≤ 1024 * v.toNat) (n : Nat) :
    min ((readSum s c).toNat + n) (1024 * v.toNat) ≤ sumAfter c v s n ∧ sumAfter c v s n ≤ 1024 * v.toNat := by
  induction n with
  | zero => exact ⟨Nat.min_le_left _ _, h⟩
  | succ n ih =>
    rw [sumAfter_succ]
    omega

/-- From above the band a sum falls by at least 1 a feed until it is 1024v + 1023, and does not go below (40_filter R128). -/
theorem sumAfter_falls (c : Channel) (v : Byte) (s : State) (h : 1024 * v.toNat + 1023 ≤ (readSum s c).toNat) (n : Nat) :
    sumAfter c v s n ≤ max ((readSum s c).toNat - n) (1024 * v.toNat + 1023) ∧ 1024 * v.toNat + 1023 ≤ sumAfter c v s n := by
  induction n with
  | zero => exact ⟨Nat.le_max_left _ _, h⟩
  | succ n ih =>
    rw [sumAfter_succ]
    omega

/-- A feed changes nothing exactly in the band of its sample (40_filter R128). -/
theorem feed_fixed_iff (c : Channel) (v : Byte) (s : State) :
    readSum (feed c v s) c = readSum s c ↔ (readSum s c).toNat / 1024 = v.toNat := by
  rw [← BitVec.toNat_inj, readSum_feed_toNat]
  omega

/-- Settles O18: the rise and the fall take at most as many feeds as the sum is away from the band. -/
theorem filterConvergesOnConstant : Obligations.FilterConvergesOnConstant := by
  refine fun c v s _ => ⟨feed_fixed_iff c v s, fun hlow => ?_, fun hhigh => ?_⟩
  · have hfeed := readSum_feed_toNat c v s
    refine ⟨by omega, by omega, 1024 * v.toNat - (readSum s c).toNat, fun m hm => ?_⟩
    have hrises := sumAfter_rises c v s hlow.le m
    have hsum : sumAfter c v s m = 1024 * v.toNat := by omega
    exact ⟨hsum, getFilter_of_sumAfter (by omega)⟩
  · have hfeed := readSum_feed_toNat c v s
    refine ⟨by omega, by omega, (readSum s c).toNat - (1024 * v.toNat + 1023), fun m hm => ?_⟩
    have hfalls := sumAfter_falls c v s hhigh.le m
    have hsum : sumAfter c v s m = 1024 * v.toNat + 1023 := by omega
    exact ⟨hsum, getFilter_of_sumAfter (by omega)⟩

/-- A constant input one above the output adds 1 a feed until the band is left (70_reset_and_hazards R262). -/
theorem sumAfter_unit_up (c : Channel) (x : Byte) (s : State) (h : x.toNat = (readSum s c).toNat / 1024 + 1) (n : Nat)
    (hn : n ≤ 1024 - (readSum s c).toNat % 1024) : sumAfter c x s n = (readSum s c).toNat + n := by
  induction n with
  | zero => rfl
  | succ n ih =>
    rw [sumAfter_succ, ih (Nat.le_of_succ_le hn)]
    omega

/-- A constant input one below the output takes 1 a feed until the band is left (70_reset_and_hazards R262). -/
theorem sumAfter_unit_down (c : Channel) (x : Byte) (s : State) (h : x.toNat + 1 = (readSum s c).toNat / 1024) (n : Nat)
    (hn : n ≤ (readSum s c).toNat % 1024 + 1) : sumAfter c x s n = (readSum s c).toNat - n := by
  induction n with
  | zero => rfl
  | succ n ih =>
    rw [sumAfter_succ, ih (Nat.le_of_succ_le hn)]
    omega

/-- Settles O19: the sum moves by 1 a feed inside the band of the output, so the feeds to its edge are counted by the fraction. -/
theorem oneUnitStepLatency : Obligations.OneUnitStepLatency := by
  refine fun c v x s hv => ⟨fun hx k => ?_, fun hx k => ?_⟩
  · have hsum := sumAfter_unit_up c x s (by omega) k
    exact ⟨fun hk => getFilter_of_sumAfter (by rw [hsum hk.le]; omega),
      fun hk => getFilter_of_sumAfter (by rw [hsum hk.le]; omega)⟩
  · have hsum := sumAfter_unit_down c x s (by omega) k
    exact ⟨fun hk => getFilter_of_sumAfter (by rw [hsum hk.le]; omega),
      fun hk => getFilter_of_sumAfter (by rw [hsum hk.le]; omega)⟩

end Sys2Proof.Machine
end

section
/-! SUPPORT. What the operations leave unchanged, in every state (10_state section 10): each body path by path. -/

namespace Sys2Proof.Machine

/-- An operation's next state, where it answers one, is the end of the tick after its body (20_memory R60). -/
theorem eq_endTick_of_exec {i : Instr} {s t : State} (h : exec i s = .next t) : t = endTick (opBody i (beginTick s)) := by
  rw [exec_eq_runTick i (wellFormed_of_exec_next h), runTick_eq] at h
  exact (Host.Outcome.next.inj h).symm

/-- THRUST, DUR, LEVEL, DUTY and DBT1 are as they were: what the operations that feed leave alone (10_state section 10). -/
structure SameRun (old new : Tick) : Prop where
  thrust : new.regs.thrust = old.regs.thrust
  dur : new.regs.dur = old.regs.dur
  level : new.regs.level = old.regs.level
  duty : new.regs.duty = old.regs.duty
  dbt1 : new.regs.dbt1 = old.regs.dbt1

theorem readyWaitBody_sameRun (w : InputWord) (t : Tick) : SameRun t (readyWaitBody w t) := by
  by_cases h : entryLoad t.regs.chg t.regs.dbt0 = 0
  · rw [readyWaitBody_advance w t h]
    exact ⟨rfl, rfl, rfl, rfl, rfl⟩
  · rw [readyWaitBody_running w t h]
    exact ⟨rfl, rfl, rfl, rfl, rfl⟩

/-- Settles O30: RBW.TICK on its two paths; RDY.FEED does not branch. -/
theorem feedingOperationsFrame : Obligations.FeedingOperationsFrame := by
  refine fun btn thr tim s t => ⟨fun h => ?_, fun h => ?_⟩
  · have hrun := readyWaitBody_sameRun ⟨btn, thr, tim⟩ (beginTick s)
    have hframe := readyWaitBody_keepsFrame ⟨btn, thr, tim⟩ (beginTick s)
    rw [eq_endTick_of_exec h]
    exact ⟨hrun.thrust, hrun.dur, hrun.level, hrun.duty, hrun.dbt1, hframe.inputs⟩
  · rw [eq_endTick_of_exec h]
    exact ⟨rfl, rfl, rfl, rfl, rfl, rfl, rfl, rfl⟩

/-- Both sums, DBT0, THRUST, LEVEL and DUTY are as they were: what the wait of a run leaves alone (10_state section 10). -/
structure SameOutput (old new : Tick) : Prop where
  fa0 : new.regs.fa0 = old.regs.fa0
  fa1 : new.regs.fa1 = old.regs.fa1
  dbt0 : new.regs.dbt0 = old.regs.dbt0
  thrust : new.regs.thrust = old.regs.thrust
  level : new.regs.level = old.regs.level
  duty : new.regs.duty = old.regs.duty

theorem thrustWaitBody_sameOutput (t : Tick) : SameOutput t (thrustWaitBody t) := by
  by_cases h : entryLoad t.regs.chg t.regs.dbt1 = 0
  · rw [thrustWaitBody_leave t h]
    exact ⟨rfl, rfl, rfl, rfl, rfl, rfl⟩
  by_cases hd : satdec t.regs.dur = 0
  · rw [thrustWaitBody_exhausted t h hd]
    exact ⟨rfl, rfl, rfl, rfl, rfl, rfl⟩
  by_cases h1 : entryLoad t.regs.chg t.regs.dbt1 - 1 = 0
  · rw [thrustWaitBody_elapsed t h hd h1]
    exact ⟨rfl, rfl, rfl, rfl, rfl, rfl⟩
  · rw [thrustWaitBody_running t h hd h1]
    exact ⟨rfl, rfl, rfl, rfl, rfl, rfl⟩

/-- Settles O31: RDY.ARM does not branch; TBW.TICK on its four paths. -/
theorem armAndWaitFrame : Obligations.ArmAndWaitFrame := by
  refine fun btn thr tim s t => ⟨fun h => ?_, fun h => ?_⟩
  · rw [eq_endTick_of_exec h]
    exact ⟨rfl, rfl, rfl, rfl, rfl⟩
  · have hout := thrustWaitBody_sameOutput (beginTick s)
    have hframe := thrustWaitBody_keepsFrame (beginTick s)
    rw [eq_endTick_of_exec h]
    exact ⟨hout.fa0, hout.fa1, hout.dbt0, hout.thrust, hout.level, hout.duty, hframe.inputs⟩

/-- Both sums and both timers are as they were: what the operations of THRUST and THRUST_DOWN leave alone (10_state section 10). -/
structure SameFilters (old new : Tick) : Prop where
  fa0 : new.regs.fa0 = old.regs.fa0
  fa1 : new.regs.fa1 = old.regs.fa1
  dbt0 : new.regs.dbt0 = old.regs.dbt0
  dbt1 : new.regs.dbt1 = old.regs.dbt1

theorem thrustRunBody_sameFilters (t : Tick) : SameFilters t (thrustRunBody t) := by
  by_cases h : satdec t.regs.dur = 0
  · rw [thrustRunBody_expired t h]
    exact ⟨rfl, rfl, rfl, rfl⟩
  · rw [thrustRunBody_running t h]
    exact ⟨rfl, rfl, rfl, rfl⟩

theorem rampStep_sameFilters (t : Tick) : SameFilters t (rampStep t) := by
  by_cases h : t.regs.level.toNat ≤ 32
  · rw [rampStep_done t h]
    exact ⟨rfl, rfl, rfl, rfl⟩
  · rw [rampStep_running t (Nat.lt_of_not_le h)]
    exact ⟨rfl, rfl, rfl, rfl⟩

theorem opBody_sameFilters {i : Instr} {thr tim : Byte}
    (hi : i = .thrRun thr tim ∨ i = .thrStop thr tim ∨ i = .tdnRamp thr tim ∨ i = .tdnStop thr tim) (t : Tick) :
    SameFilters t (opBody i t) := by
  rcases hi with rfl | rfl | rfl | rfl
  · exact thrustRunBody_sameFilters t
  · exact ⟨rfl, rfl, rfl, rfl⟩
  · exact rampStep_sameFilters t
  · exact ⟨rfl, rfl, rfl, rfl⟩

/-- Settles O32: the bodies of the four operations, and the path of each of the two that branch on which it does not return to idle. -/
theorem runOperationsFrame : Obligations.RunOperationsFrame := by
  intro thr tim i s t hi h
  obtain ⟨hfa0, hfa1, hdbt0, hdbt1⟩ := opBody_sameFilters hi (beginTick s)
  have hframe := opBody_keepsFrame i (beginTick s)
  rw [eq_endTick_of_exec h]
  refine ⟨hfa0, hfa1, hdbt0, hdbt1, hframe.inputs, ?_, ?_⟩
  · rintro rfl hlevel
    rw [opBody, rampStep_running (beginTick s) hlevel]
    exact ⟨rfl, rfl, rfl⟩
  · rintro rfl hdur
    rw [opBody, thrustRunBody_running (beginTick s) (mt (satdec_eq_zero s.dur).1 hdur.not_ge)]
    exact ⟨rfl, rfl, rfl, rfl⟩

end Sys2Proof.Machine
end

section
/-! SUPPORT. The two orders of RAMP_ORDER (42_ramp_down R151, R153), in the numbers of the level before and after the subtraction. -/

namespace Sys2Proof.Machine

/-- The subtraction of a ramp step as a number, modulo 2^16 (42_ramp_down R153). -/
theorem rampSubtract_level_toNat (t : Tick) :
    (rampSubtract t).regs.level.toNat = (t.regs.level.toNat + 0xFFE0) % 2 ^ 16 := by
  rw [rampSubtract_level, rampStep_const, BitVec.toNat_sub, BitVec.toNat_ofNat, Nat.add_comm]

/-- Subtracting first, where the level that is left is depleted. -/
theorem rampSubtractFirst_done (t : Tick) (h : (rampSubtract t).regs.level.toNat ≤ 32) :
    rampSubtractFirst t = retIdle (rampSubtract t) :=
  if_pos ((rampDone_iff _).2 h)

/-- Subtracting first, where it is not. -/
theorem rampSubtractFirst_running (t : Tick) (h : 32 < (rampSubtract t).regs.level.toNat) :
    rampSubtractFirst t = rampSubtract t :=
  if_neg (mt (rampDone_iff _).1 h.not_ge)

/-- The return to idle overwrites what a ramp step's subtraction wrote (43_output_stage R170). -/
theorem retIdle_rampSubtract (t : Tick) : retIdle (rampSubtract t) = retIdle t := rfl

/-- Settles O43: where each order is depleted, from the level before and the level after the subtraction. -/
theorem rampOrdersCompared : Obligations.RampOrdersCompared := by
  intro t
  have hlt := t.regs.level.isLt
  have hsub := rampSubtract_level_toNat t
  refine ⟨rfl, rampStep_done t, fun h => ?_, fun h h' => ?_, fun h => ?_⟩
  · have hwrap : (rampSubtract t).regs.level.toNat = t.regs.level.toNat + 0xFFE0 := by omega
    rw [rampSubtractFirst_running t (by omega)]
    refine ⟨hwrap, BitVec.eq_of_toNat_eq ?_, rfl⟩
    rw [rampSubtract_duty, levelDuty_toNat, ← rampSubtract_level, hwrap]
    show (t.regs.level.toNat + 0xFFE0) / 256 = 255
    omega
  · rw [show rampTestFirst t = rampSubtract t from rampStep_running t h, rampSubtractFirst_done t (by omega)]
    exact ⟨rfl, rfl, rfl⟩
  · rcases h with h | h
    · rw [show rampTestFirst t = retIdle t from rampStep_done t h.le, rampSubtractFirst_done t (by omega),
        retIdle_rampSubtract]
    · rw [show rampTestFirst t = rampSubtract t from rampStep_running t (by omega), rampSubtractFirst_running t (by omega)]

end Sys2Proof.Machine
end

section
/-! SUPPORT. The laws of the state machine (44_state_machine sections 7 and 8; 30_encoding R99; 20_memory R65; 60_exceptions section 3),
each read off the paths of a tick. -/

namespace Sys2Proof.Machine

/-- A timer runs after the entry action exactly where CHG is 1 or the timer is not 0 (44_state_machine R181). -/
theorem waitLeft_pos_iff (chg : Bool) (timer : TimerWord) : 0 < waitLeft chg timer ↔ chg = true ∨ 0 < timer.toNat := by
  cases chg <;> simp

/-- The table of 44_state_machine R200: the next STATE in a legal state. -/
def tableNext (s : State) (btn : Bool) : StateCode :=
  if s.state = 0 then (if waitLeft s.chg s.dbt0 = 0 then 1 else 0)
  else if s.state = 1 then (if btn then 2 else 1)
  else if s.state = 2 then
    (if waitLeft s.chg s.dbt1 = 0 then 3
     else if s.dur.toNat - 1 = 0 then 4
     else if waitLeft s.chg s.dbt1 - 1 = 0 then 3 else 2)
  else if s.state = 3 then (if btn ∨ s.dur.toNat - 1 = 0 then 0 else 3)
  else (if btn ∨ s.level.toNat ≤ 32 then 0 else 4)

/-- Each path of a tick is a row of the table. -/
theorem TickPath.state_eq {s t : State} {w : InputWord} (hp : TickPath s w t) : t.state = tableNext s w.btn := by
  cases hp with
  | readyWait hst htimer => simp [tableNext, hst, htimer.ne']
  | readyWaitDone hst htimer => simp [tableNext, hst, htimer]
  | readyFeed hst hbtn | arm hst hbtn => simp [tableNext, hst, hbtn]
  | thrustWaitDone hst htimer => simp [tableNext, hst, htimer]
  | exhausted hst htimer hdur => simp [tableNext, hst, htimer.ne', Nat.sub_eq_zero_of_le hdur]
  | elapsed hst htimer hdur => simp [tableNext, hst, htimer, Nat.sub_ne_zero_of_lt hdur]
  | thrustWait hst htimer hdur =>
    simp [tableNext, hst, (Nat.zero_lt_of_lt htimer).ne', Nat.sub_ne_zero_of_lt htimer, Nat.sub_ne_zero_of_lt hdur]
  | run hst hbtn hdur => simp [tableNext, hst, hbtn, Nat.sub_ne_zero_of_lt hdur]
  | ramp hst hbtn hlevel => simp [tableNext, hst, hbtn, hlevel.not_ge]
  | idle hcall =>
    obtain ⟨hst, hstop⟩ | ⟨hst, hstop⟩ := hcall
    · have hrow : w.btn = true ∨ s.dur.toNat - 1 = 0 := hstop.imp_right Nat.sub_eq_zero_of_le
      simp only [tableNext, hst, if_pos hrow]
      rfl
    · simp only [tableNext, hst, if_pos hstop]
      rfl

/-- Settles O33: RESET, the frame of a tick for CHG, and the path for STATE. -/
theorem transitionRelation : Obligations.TransitionRelation := by
  refine ⟨fun s w rest h => ⟨_, step_reset s w rest h, rfl⟩, fun s w rest hs h => ?_⟩
  obtain ⟨t, hstep, _, hchg, _⟩ := tickFrame s w rest hs h
  exact ⟨t, hstep, hchg, ((step_eq_next_iff h).1 hstep).state_eq⟩

/-- Two input words agree on what a tick in state `s` reads of them: BTN in the states that look at it, and the samples in the ticks
that feed the filters (30_encoding R99). -/
structure AgreeWhereRead (s : State) (w w' : InputWord) : Prop where
  btn : s.state = 1 ∨ s.state = 3 ∨ s.state = 4 → w.btn = w'.btn
  samples : (s.state = 0 ∧ (s.chg = true ∨ 0 < s.dbt0.toNat)) ∨ (s.state = 1 ∧ w.btn = false) →
    w.sThr = w'.sThr ∧ w.sTime = w'.sTime

/-- FEEDBOTH reads the samples alone. -/
theorem feedBoth_congr {w w' : InputWord} (h : w.sThr = w'.sThr ∧ w.sTime = w'.sTime) (s : State) :
    feedBoth w s = feedBoth w' s := by
  rw [feedBoth_eq, feedBoth_eq, h.1, h.2]

/-- A path of a tick is a path of any word that agrees with its own where the tick reads it. -/
theorem TickPath.congr {s t : State} {w w' : InputWord} (hw : AgreeWhereRead s w w') (hp : TickPath s w t) :
    TickPath s w' t := by
  cases hp with
  | readyWait hst htimer =>
    rw [feedBoth_congr (hw.samples (.inl ⟨hst, (waitLeft_pos_iff _ _).1 htimer⟩))]
    exact .readyWait hst htimer
  | readyWaitDone hst htimer => exact .readyWaitDone hst htimer
  | readyFeed hst hbtn =>
    rw [feedBoth_congr (hw.samples (.inr ⟨hst, hbtn⟩))]
    exact .readyFeed hst ((hw.btn (.inl hst)).symm.trans hbtn)
  | arm hst hbtn => exact .arm hst ((hw.btn (.inl hst)).symm.trans hbtn)
  | thrustWaitDone hst htimer => exact .thrustWaitDone hst htimer
  | exhausted hst htimer hdur => exact .exhausted hst htimer hdur
  | elapsed hst htimer hdur => exact .elapsed hst htimer hdur
  | thrustWait hst htimer hdur => exact .thrustWait hst htimer hdur
  | run hst hbtn hdur => exact .run hst ((hw.btn (.inr (.inl hst))).symm.trans hbtn) hdur
  | ramp hst hbtn hlevel => exact .ramp hst ((hw.btn (.inr (.inr hst))).symm.trans hbtn) hlevel
  | idle hcall =>
    have hbtn : w.btn = w'.btn := hw.btn (.inr (hcall.imp And.left And.left))
    exact .idle (hbtn ▸ hcall)

/-- A tick that takes a path, from the state before its pulse is presented. -/
theorem TickPath.step_pulse {s t : State} {w : InputWord} {rest : List TickInput} (hp : TickPath (afterPulse s rest) w t) :
    step { s with inputs := ⟨false, w⟩ :: rest } = .next t :=
  TickPath.step_eq (s := { s with inputs := ⟨false, w⟩ :: rest }) hp rfl

/-- In a reserved state a tick is refused with the state's code, whatever the ports (30_encoding R98). -/
theorem step_reserved (s : State) (w : InputWord) (rest : List TickInput) (hs : ¬ s.state.toNat ≤ 4) :
    step { s with inputs := ⟨false, w⟩ :: rest } = .refused (.reservedState s.state) := by
  rw [step_eq_exec { s with inputs := ⟨false, w⟩ :: rest } w rest rfl, decode_tickWord]
  rcases stateCode_reserved_cases s.state hs with hst | hst | hst <;> rw [hst] <;> rfl

/-- Settles O34: the path of the one word is the path of the other, and a reserved state is refused for both. -/
theorem ignoredBitsHaveNoEffect : Obligations.IgnoredBitsHaveNoEffect := by
  intro s w w' rest hbtn hsamples
  have hw : AgreeWhereRead (afterPulse s rest) w w' := ⟨hbtn, hsamples⟩
  refine ⟨?_, fun hs => exists_step hs⟩
  by_cases hs : s.state.toNat ≤ 4
  · obtain ⟨t, hp⟩ := exists_tickPath (afterPulse s rest) w hs
    rw [hp.step_pulse, (hp.congr hw).step_pulse]
  · rw [step_reserved s w rest hs, step_reserved s w' rest hs]

/-- Where SAMPLE_REQ is 1 (20_memory R65). -/
theorem sampleReq_iff (s : State) (btn : Bool) :
    sampleReq s btn = true ↔ (s.state = 0 ∧ 0 < waitLeft s.chg s.dbt0) ∨ (s.state = 1 ∧ btn = false) := by
  have hpos : s.dbt0 ≠ 0 ↔ 0 < s.dbt0.toNat := by
    rw [Nat.pos_iff_ne_zero, ne_eq, ne_eq, ← BitVec.toNat_inj]
    rfl
  rw [waitLeft_pos_iff, ← hpos]
  simp [sampleReq]

/-- SAMPLE_REQ is 0 in every state but READY_BTN_WAIT and READY. -/
theorem sampleReq_eq_false {s : State} (btn : Bool) (h0 : s.state ≠ 0) (h1 : s.state ≠ 1) : sampleReq s btn = false := by
  rw [Bool.eq_false_iff, ne_eq, sampleReq_iff]
  exact fun h => h.elim (fun h => h0 h.1) (fun h => h1 h.1)

/-- A tick feeds both filters where SAMPLE_REQ is 1, and neither where it is 0 (20_memory R65, R66). -/
theorem TickPath.feeds_iff {s t : State} {w : InputWord} (hp : TickPath s w t) :
    if sampleReq s w.btn then t.fa0 = (feedBoth w s).fa0 ∧ t.fa1 = (feedBoth w s).fa1
    else t.fa0 = s.fa0 ∧ t.fa1 = s.fa1 := by
  have hfed (h : (s.state = 0 ∧ 0 < waitLeft s.chg s.dbt0) ∨ (s.state = 1 ∧ w.btn = false)) :=
    (sampleReq_iff s w.btn).2 h
  cases hp with
  | readyWait hst htimer =>
    rw [if_pos (hfed (.inl ⟨hst, htimer⟩))]
    exact ⟨rfl, rfl⟩
  | readyFeed hst hbtn =>
    rw [if_pos (hfed (.inr ⟨hst, hbtn⟩))]
    exact ⟨rfl, rfl⟩
  | readyWaitDone hst htimer =>
    rw [if_neg (by simp [sampleReq_iff, hst, htimer])]
    exact ⟨rfl, rfl⟩
  | arm hst hbtn =>
    rw [if_neg (by simp [sampleReq_iff, hst, hbtn])]
    exact ⟨rfl, rfl⟩
  | thrustWaitDone hst | exhausted hst | elapsed hst | thrustWait hst | run hst | ramp hst =>
    rw [sampleReq_eq_false w.btn (hst ▸ by decide) (hst ▸ by decide)]
    exact ⟨rfl, rfl⟩
  | idle hcall =>
    obtain ⟨hst, _⟩ | ⟨hst, _⟩ := hcall <;>
    · rw [sampleReq_eq_false w.btn (hst ▸ by decide) (hst ▸ by decide)]
      exact ⟨rfl, rfl⟩

/-- Settles O35: the port's formula, and the sums that a tick with it and a tick without it leave. -/
theorem sampleReqMarksFeedingTicks : Obligations.SampleReqMarksFeedingTicks := by
  intro s w rest hs h
  obtain ⟨t, hstep, hp⟩ := exists_step_tickPath hs h
  have hsums := hp.feeds_iff
  obtain ⟨hfa0, hfa1⟩ := feedBoth_toNat w (afterPulse s rest)
  refine ⟨?_, t, hstep, ?_⟩
  · rw [sampleReq_iff, waitLeft_pos_iff]
  · cases hreq : sampleReq s w.btn with
    | true =>
      obtain ⟨h0, h1⟩ := (if_pos hreq).mp hsums
      rw [if_pos rfl, h0, h1]
      exact ⟨hfa0, hfa1⟩
    | false => exact (if_neg (Bool.eq_false_iff.1 hreq)).mp hsums

/-- A tick that calls RETIDLE ends idle with the output off (43_output_stage R170). -/
theorem step_retIdle {s : State} {w : InputWord} {rest : List TickInput} (hcall : CallsRetIdle s.state w.btn s)
    (h : TakesTick s w rest) :
    step s = .next { s with
      thrust := 0, dur := 0, level := 0, duty := 0, state := 0, chg := true, ticks := s.ticks + 1, inputs := rest } :=
  (TickPath.idle (s := afterPulse s rest) hcall).step_eq h

/-- A tick in a wait state is the same whatever the button (44_state_machine R206). -/
theorem step_btn_ignored (s : State) (w : InputWord) (b : Bool) (rest : List TickInput) (hst : s.state = 0 ∨ s.state = 2) :
    step { s with inputs := ⟨false, w⟩ :: rest } = step { s with inputs := ⟨false, { w with btn := b }⟩ :: rest } := by
  refine (ignoredBitsHaveNoEffect s w { w with btn := b } rest (fun h => ?_) (fun _ => ⟨rfl, rfl⟩)).1
  rcases hst with hst | hst <;> rw [hst] at h <;> exact absurd h (by decide)

/-- Settles O36: a press in THRUST or THRUST_DOWN calls RETIDLE; a wait state ignores it. -/
theorem emergencyStop : Obligations.EmergencyStop := by
  refine ⟨fun s w rest hst hbtn h => ?_, fun s w rest hst => ?_⟩
  · exact step_retIdle (hst.imp (⟨·, .inl hbtn⟩) (⟨·, .inl hbtn⟩)) h
  · exact step_btn_ignored s { w with btn := true } false rest (.inr hst)

/-- Settles O37: the wait states ignore BTN; a press arms in READY and calls RETIDLE in THRUST and THRUST_DOWN. -/
theorem debounceIgnoresButton : Obligations.DebounceIgnoresButton := by
  refine fun s w b rest => ⟨step_btn_ignored s w b rest, fun hst => ?_⟩
  rcases hst with hst | hst
  · have hp := TickPath.arm (s := afterPulse s rest) (w := { w with btn := true }) hst rfl
    exact ⟨_, hp.step_pulse, show (2 : StateCode) ≠ s.state from hst ▸ by decide⟩
  · refine ⟨_, step_retIdle (s := { s with inputs := _ }) (hst.imp (⟨·, .inl rfl⟩) (⟨·, .inl rfl⟩)) rfl, ?_⟩
    rcases hst with hst | hst <;> exact show (0 : StateCode) ≠ s.state from hst ▸ by decide

/-- Settles O38: an expiry and the end of a ramp call RETIDLE with the button and without it, and a press in a ramp calls it always. -/
theorem stopAndExpiryCoincide : Obligations.StopAndExpiryCoincide := by
  refine fun s w rest => ⟨fun hend => ?_, fun hst => ⟨_, step_retIdle (.inr ⟨hst, .inl rfl⟩) rfl, rfl, rfl, rfl⟩⟩
  have hcall (btn : Bool) : CallsRetIdle s.state btn s :=
    hend.imp (fun h => ⟨h.1, .inr h.2⟩) (fun h => ⟨h.1, .inr h.2⟩)
  have hstep (btn : Bool) := step_retIdle (s := { s with inputs := ⟨false, { w with btn := btn }⟩ :: rest }) (hcall btn) rfl
  exact (hstep true).trans (hstep false).symm

/-- Settles O40: of the paths that write DUTY, the arm is one clause, a ramp is in THRUST_DOWN, and the return to idle is from there or
from THRUST. -/
theorem dutyHoldsElsewhere : Obligations.DutyHoldsElsewhere := by
  intro s w rest hs h
  obtain ⟨t, hstep, hp⟩ := exists_step_tickPath hs h
  refine ⟨t, hstep, fun harm hdown hidle => ?_⟩
  cases hp with
  | arm hst hbtn => exact absurd ⟨hst, hbtn⟩ harm
  | ramp hst => exact absurd hst hdown
  | idle hcall =>
    obtain ⟨hst, _⟩ | ⟨hst, _⟩ := hcall
    · exact absurd ⟨hst, rfl⟩ hidle
    · exact absurd hst hdown
  | _ => rfl

/-- With another value in THRUST a tick takes the same path, to a state that differs in THRUST alone (10_state section 3). -/
theorem TickPath.withThrust {s t : State} {w : InputWord} (x : Byte) (hp : TickPath s w t) :
    ∃ y, TickPath { s with thrust := x } w { t with thrust := y } := by
  cases hp with
  | readyWait hst htimer => exact ⟨x, .readyWait hst htimer⟩
  | readyWaitDone hst htimer => exact ⟨x, .readyWaitDone hst htimer⟩
  | readyFeed hst hbtn => exact ⟨x, .readyFeed hst hbtn⟩
  | arm hst hbtn => exact ⟨getFilter .throttle s, .arm hst hbtn⟩
  | thrustWaitDone hst htimer => exact ⟨x, .thrustWaitDone hst htimer⟩
  | exhausted hst htimer hdur => exact ⟨x, .exhausted hst htimer hdur⟩
  | elapsed hst htimer hdur => exact ⟨x, .elapsed hst htimer hdur⟩
  | thrustWait hst htimer hdur => exact ⟨x, .thrustWait hst htimer hdur⟩
  | run hst hbtn hdur => exact ⟨x, .run hst hbtn hdur⟩
  | ramp hst hbtn hlevel => exact ⟨x, .ramp hst hbtn hlevel⟩
  | idle hcall => exact ⟨0, .idle hcall⟩

/-- Settles O41: a step without a pulse keeps THRUST, RESET writes it, and a tick takes the same path. -/
theorem thrustIsReadByNothing : Obligations.ThrustIsReadByNothing := by
  intro s x hs
  obtain ⟨t, hstep⟩ := exists_step hs
  rcases step_cases s with ⟨hnil, h⟩ | ⟨w, rest, hin, h⟩ | ⟨w, rest, hin, _⟩
  · exact ⟨s, x, h, step_no_pulse _ hnil⟩
  · exact ⟨_, 0, h, step_reset { s with thrust := x } w rest hin⟩
  · obtain ⟨y, hp⟩ := ((step_eq_next_iff hin).1 hstep).withThrust x
    exact ⟨t, y, hstep, TickPath.step_eq hp hin⟩

/-- Settles O42: the ramp goes on, and its level and duty are those of 42_ramp_down R151 as numbers. -/
theorem rampIsMonotone : Obligations.RampIsMonotone := by
  intro s w rest hduty hst hbtn hlevel h
  have hmax := s.level.isLt
  rw [DutyIsTopByte] at hduty
  refine ⟨_, (TickPath.ramp (s := afterPulse s rest) hst hbtn hlevel).step_eq h, hst, ?_⟩
  simp only [afterPulse, BitVec.toNat_ofNat]
  omega

end Sys2Proof.Machine
end

section
/-! SUPPORT. The reference listing of a tick (44_state_machine R210): each primitive as the listing writes it on bit vectors, then each
path of a tick as a branch of the listing. -/

namespace Sys2Proof.Machine

/-- A feed on bit vectors: an overflow of the addition is undone by the subtraction (40_filter R121). -/
theorem filterNext_eq_bits (sum : SumWord) (smp : Byte) :
    BitVec.ofNat 18 (filterNext sum.toNat smp.toNat) = sum + smp.setWidth 18 - (sum >>> 10) := by
  have hsum := sum.isLt
  have hsmp := smp.isLt
  apply BitVec.eq_of_toNat_eq
  rw [filterNext_toNat, BitVec.toNat_sub, BitVec.toNat_add, BitVec.toNat_setWidth, BitVec.toNat_ushiftRight,
    Nat.shiftRight_eq_div_pow]
  omega

/-- The output of a filter on bit vectors (40_filter R122). -/
theorem filterOut_eq_bits (sum : SumWord) : filterOut sum = (sum >>> 10).setWidth 8 := by
  apply BitVec.eq_of_toNat_eq
  rw [filterOut, BitVec.toNat_ofNat, BitVec.toNat_setWidth, BitVec.toNat_ushiftRight]
  rfl

/-- The armed duration on bit vectors (41_run_duration R141). -/
theorem runDur_filterOut_eq_bits (sum : SumWord) : runDur (filterOut sum) = 15000 + ((sum >>> 10) <<< 9) := by
  have hsum := sum.isLt
  apply BitVec.eq_of_toNat_eq
  rw [runDur_toNat, filterOut_toNat, BitVec.toNat_add, BitVec.toNat_shiftLeft, BitVec.toNat_ushiftRight,
    Nat.shiftRight_eq_div_pow, Nat.shiftLeft_eq]
  show 15000 + sum.toNat / 1024 * 512 = (15000 + sum.toNat / 1024 * 512 % 262144) % 262144
  omega

/-- The armed level on bit vectors (43_output_stage R169). -/
theorem thrustLevel_filterOut_eq_bits (sum : SumWord) : thrustLevel (filterOut sum) = (sum >>> 10).setWidth 16 <<< 8 := by
  have hsum := sum.isLt
  apply BitVec.eq_of_toNat_eq
  rw [thrustLevel_toNat, filterOut_toNat, BitVec.toNat_shiftLeft, BitVec.toNat_setWidth, BitVec.toNat_ushiftRight,
    Nat.shiftRight_eq_div_pow, Nat.shiftLeft_eq]
  omega

/-- The level of a ramp step on bit vectors, where it is taken (42_ramp_down R151). -/
theorem ramp_level_eq_bits (l : LevelWord) (h : 32 < l.toNat) : BitVec.ofNat 16 (l.toNat - 32) = l - 32 := by
  rw [← level_sub_toNat l h, BitVec.ofNat_toNat, BitVec.setWidth_eq]
  rfl

/-- The duty of a ramp step on bit vectors, where it is taken (42_ramp_down R151). -/
theorem ramp_duty_eq_bits (l : LevelWord) (h : 32 < l.toNat) :
    BitVec.ofNat 8 ((l.toNat - 32) / 256) = ((l - 32) >>> 8).setWidth 8 := by
  apply BitVec.eq_of_toNat_eq
  rw [← level_sub_toNat l h, BitVec.toNat_ofNat, BitVec.toNat_setWidth, BitVec.toNat_ushiftRight, Nat.shiftRight_eq_div_pow]
  rfl

/-- The listing's FEEDBOTH. -/
theorem feedBoth_eq_bits (w : InputWord) (s : State) : feedBoth w s = { s with
    fa0 := s.fa0 + w.sThr.setWidth 18 - (s.fa0 >>> 10), fa1 := s.fa1 + w.sTime.setWidth 18 - (s.fa1 >>> 10) } := by
  rw [← filterNext_eq_bits, ← filterNext_eq_bits]
  rfl

/-- A timer that runs, decremented on bit vectors (44_state_machine R181). -/
theorem waitLeft_pred_eq_bits {chg : Bool} {timer : TimerWord} (h : 0 < waitLeft chg timer) :
    BitVec.ofNat 9 (waitLeft chg timer - 1) = entryLoad chg timer - 1 :=
  (entryLoad_pred (entryLoad_ne_zero h)).symm

/-- The listing's comparison of a ramp step, as numbers. -/
theorem level_le_iff (l : LevelWord) : l ≤ 32 ↔ l.toNat ≤ 32 := BitVec.le_def

/-- The end of the listing's tick, from the registers `u` that its branch leaves. -/
def listingEnd (s u : State) : State := { u with chg := u.state != s.state, ticks := s.ticks + 1 }

theorem listingEnd_leave {s u : State} (h : u.state ≠ s.state) :
    listingEnd s u = { u with chg := true, ticks := s.ticks + 1 } := by
  rw [listingEnd, bne_iff_ne.2 h]

section
variable {s : State} (w : InputWord)

/-- The listing's branch of READY_BTN_WAIT. -/
theorem listing_readyWait (hst : s.state = 0) : listing s w = listingEnd s (
    if entryLoad s.chg s.dbt0 = 0 then { s with dbt0 := entryLoad s.chg s.dbt0, state := 1 }
    else { feedBoth w s with dbt0 := entryLoad s.chg s.dbt0 - 1 }) := by
  rw [feedBoth_eq_bits]
  exact congrArg (listingEnd s) (if_pos hst)

/-- The listing's branch of READY. -/
theorem listing_ready (hst : s.state = 1) : listing s w = listingEnd s (
    if w.btn then { s with
      thrust := getFilter .throttle s, dur := runDur (getFilter .time s), duty := getFilter .throttle s,
      level := thrustLevel (getFilter .throttle s), state := 2 }
    else feedBoth w s) := by
  have h0 : s.state ≠ 0 := hst ▸ by decide
  rw [feedBoth_eq_bits, getFilter, getFilter, runDur_filterOut_eq_bits, thrustLevel_filterOut_eq_bits, filterOut_eq_bits]
  exact congrArg (listingEnd s) ((if_neg h0).trans (if_pos hst))

/-- The listing's branch of THRUST_BTN_WAIT. -/
theorem listing_thrustWait (hst : s.state = 2) : listing s w = listingEnd s (
    if entryLoad s.chg s.dbt1 = 0 then { s with dbt1 := entryLoad s.chg s.dbt1, state := 3 }
    else { s with
      dbt1 := entryLoad s.chg s.dbt1 - 1
      dur := satdec s.dur
      state := if satdec s.dur = 0 then 4 else if entryLoad s.chg s.dbt1 - 1 = 0 then 3 else 2 }) := by
  have h0 : s.state ≠ 0 := hst ▸ by decide
  have h1 : s.state ≠ 1 := hst ▸ by decide
  exact congrArg (listingEnd s) ((if_neg h0).trans ((if_neg h1).trans (if_pos hst)))

/-- The listing's branch of THRUST. -/
theorem listing_thrust (hst : s.state = 3) : listing s w = listingEnd s (
    if w.btn then { s with thrust := 0, dur := 0, level := 0, duty := 0, state := 0 }
    else if satdec s.dur = 0 then { s with thrust := 0, dur := 0, level := 0, duty := 0, state := 0 }
    else { s with dur := satdec s.dur }) := by
  have h0 : s.state ≠ 0 := hst ▸ by decide
  have h1 : s.state ≠ 1 := hst ▸ by decide
  have h2 : s.state ≠ 2 := hst ▸ by decide
  exact congrArg (listingEnd s) ((if_neg h0).trans ((if_neg h1).trans ((if_neg h2).trans (if_pos hst))))

/-- The listing's branch of THRUST_DOWN. -/
theorem listing_thrustDown (hst : s.state = 4) : listing s w = listingEnd s (
    if w.btn then { s with thrust := 0, dur := 0, level := 0, duty := 0, state := 0 }
    else if s.level ≤ 32 then { s with thrust := 0, dur := 0, level := 0, duty := 0, state := 0 }
    else { s with level := s.level - 32, duty := ((s.level - 32) >>> 8).setWidth 8 }) := by
  have h0 : s.state ≠ 0 := hst ▸ by decide
  have h1 : s.state ≠ 1 := hst ▸ by decide
  have h2 : s.state ≠ 2 := hst ▸ by decide
  have h3 : s.state ≠ 3 := hst ▸ by decide
  exact congrArg (listingEnd s) ((if_neg h0).trans ((if_neg h1).trans ((if_neg h2).trans (if_neg h3))))

end

/-- Each path of a tick is a branch of the listing (44_state_machine R210). -/
theorem TickPath.eq_listing {s t : State} {w : InputWord} (hp : TickPath s w t) : t = listing s w := by
  cases hp with
  | readyWait hst htimer =>
    rw [listing_readyWait w hst, if_neg (entryLoad_ne_zero htimer), waitLeft_pred_eq_bits htimer]
    simp [listingEnd]
  | readyWaitDone hst htimer =>
    have hdone : entryLoad s.chg s.dbt0 = 0 := (entryLoad_eq_zero _ _).2 htimer
    rw [listing_readyWait w hst, if_pos hdone, listingEnd_leave (hst ▸ show (1 : StateCode) ≠ 0 by decide),
      entryLoad_eq_self hdone]
  | readyFeed hst hbtn =>
    rw [listing_ready w hst, if_neg (Bool.eq_false_iff.1 hbtn)]
    simp [listingEnd]
  | arm hst hbtn =>
    rw [listing_ready w hst, if_pos hbtn, listingEnd_leave (hst ▸ show (2 : StateCode) ≠ 1 by decide)]
  | thrustWaitDone hst htimer =>
    have hdone : entryLoad s.chg s.dbt1 = 0 := (entryLoad_eq_zero _ _).2 htimer
    rw [listing_thrustWait w hst, if_pos hdone, listingEnd_leave (hst ▸ show (3 : StateCode) ≠ 2 by decide),
      entryLoad_eq_self hdone]
  | exhausted hst htimer hdur =>
    have hleft : satdec s.dur = 0 := (satdec_eq_zero s.dur).2 hdur
    rw [listing_thrustWait w hst, if_neg (entryLoad_ne_zero htimer), if_pos hleft,
      listingEnd_leave (hst ▸ show (4 : StateCode) ≠ 2 by decide), hleft, waitLeft_pred_eq_bits htimer]
  | elapsed hst htimer hdur =>
    have hpos : 0 < waitLeft s.chg s.dbt1 := htimer ▸ Nat.one_pos
    have hend : entryLoad s.chg s.dbt1 - 1 = 0 := entryLoad_pred_eq_zero.2 htimer
    have hleft : satdec s.dur ≠ 0 := mt (satdec_eq_zero s.dur).1 hdur.not_ge
    rw [listing_thrustWait w hst, if_neg (entryLoad_ne_zero hpos), if_neg hleft, if_pos hend,
      listingEnd_leave (hst ▸ show (3 : StateCode) ≠ 2 by decide), hend]
  | thrustWait hst htimer hdur =>
    have hpos : 0 < waitLeft s.chg s.dbt1 := Nat.zero_lt_of_lt htimer
    have hmore : entryLoad s.chg s.dbt1 - 1 ≠ 0 := mt entryLoad_pred_eq_zero.1 htimer.ne'
    have hleft : satdec s.dur ≠ 0 := mt (satdec_eq_zero s.dur).1 hdur.not_ge
    rw [listing_thrustWait w hst, if_neg (entryLoad_ne_zero hpos), if_neg hleft, if_neg hmore, ← hst,
      waitLeft_pred_eq_bits hpos]
    simp [listingEnd]
  | run hst hbtn hdur =>
    rw [listing_thrust w hst, if_neg (Bool.eq_false_iff.1 hbtn), if_neg (mt (satdec_eq_zero s.dur).1 hdur.not_ge)]
    simp [listingEnd]
  | ramp hst hbtn hlevel =>
    rw [listing_thrustDown w hst, if_neg (Bool.eq_false_iff.1 hbtn), if_neg (mt (level_le_iff s.level).1 hlevel.not_ge),
      ramp_level_eq_bits _ hlevel, ramp_duty_eq_bits _ hlevel]
    simp [listingEnd]
  | idle hcall =>
    obtain ⟨hst, hstop⟩ | ⟨hst, hstop⟩ := hcall
    · rw [← satdec_eq_zero] at hstop
      rw [listing_thrust w hst, ← ite_or, if_pos hstop, listingEnd_leave (hst ▸ show (0 : StateCode) ≠ 3 by decide)]
    · rw [← level_le_iff] at hstop
      rw [listing_thrustDown w hst, ← ite_or, if_pos hstop, listingEnd_leave (hst ▸ show (0 : StateCode) ≠ 4 by decide)]

/-- Settles O29: the tick's path is a branch of the listing. -/
theorem stepRefinesReferenceListing : Obligations.StepRefinesReferenceListing := by
  intro s w rest hs h
  obtain ⟨t, hstep, hp⟩ := exists_step_tickPath hs h
  rw [hstep, hp.eq_listing]

end Sys2Proof.Machine
end

section
/-! SUPPORT. Runs over a list of input words (20_memory R78), and the two waits (44_state_machine R183, R189): what holds after each of
their ticks, whatever the words. -/

namespace Sys2Proof.Machine

/-- A tick leaves the pulses still to come. -/
theorem TickPath.inputs_eq {s t : State} {w : InputWord} (hp : TickPath s w t) : t.inputs = s.inputs := by
  cases hp <;> rfl

/-- The last step of a run. -/
theorem runs_step {n : Nat} {s u t : State} (h : runs n s = .next u) (hstep : step u = .next t) : runs (n + 1) s = .next t := by
  rw [runs_add n 1 s u h, runs_succ 0 u t hstep, runs_zero]

/-- Induction along a run over a list of input words: what holds at its start and is carried by a path of each of its ticks. -/
theorem runs_words {P : Nat → State → Prop} {s : State} {ws : List InputWord} {rest : List TickInput} {n : Nat}
    (hn : n ≤ ws.length) (hin : s.inputs = pulsesOf ws ++ rest) (h0 : P 0 s)
    (hs : ∀ k (hk : k < n) u ins, P k u → ∃ t, TickPath (afterPulse u ins) (ws[k]'(hk.trans_le hn)) t ∧ P (k + 1) t) :
    ∀ k, k ≤ n → ∃ t, runs k s = .next t ∧ P k t ∧ t.inputs = pulsesOf (ws.drop k) ++ rest := by
  refine runs_induction (fun k u => P k u ∧ u.inputs = pulsesOf (ws.drop k) ++ rest) s n ⟨h0, hin⟩ ?_
  rintro k u hk ⟨hP, hu⟩
  rw [pulsesOf_drop ws k (hk.trans_le hn) rest] at hu
  obtain ⟨t, hp, ht⟩ := hs k hk u (pulsesOf (ws.drop (k + 1)) ++ rest) hP
  exact ⟨t, hp.step_eq hu, ht, hp.inputs_eq⟩

/-- The state after feeding both filters with each of some words. -/
def feeds (ws : List InputWord) (s : State) : State := ws.foldl (fun u w => feedBoth w u) s

/-- One more word fed. -/
theorem feeds_take_succ (ws : List InputWord) (k : Nat) (hk : k < ws.length) (s : State) :
    feeds (ws.take (k + 1)) s = feedBoth ws[k] (feeds (ws.take k) s) := by
  rw [feeds, List.take_succ_eq_append_getElem hk, List.foldl_append]
  rfl

/-- `u` is the state after `k` ticks of READY_BTN_WAIT from an entry `s`, with the words `ws` (44_state_machine R183). -/
structure ReadyWaiting (s : State) (ws : List InputWord) (k : Nat) (u : State) : Prop where
  state : u.state = 0
  left : waitLeft u.chg u.dbt0 = 500 - k
  chg : 1 ≤ k → u.chg = false
  fa0 : u.fa0 = (feeds (ws.take k) s).fa0
  fa1 : u.fa1 = (feeds (ws.take k) s).fa1
  duty : u.duty = s.duty

/-- The timer after at least one tick of the wait. -/
theorem ReadyWaiting.dbt0 {s u : State} {ws : List InputWord} {k : Nat} (h : ReadyWaiting s ws k u) (hk : 1 ≤ k) :
    u.dbt0.toNat = 500 - k := by
  rw [← h.left, h.chg hk, waitLeft_running]

/-- A tick of the wait while the timer runs. -/
theorem ReadyWaiting.tick {s u : State} {ws : List InputWord} {k : Nat} (h : ReadyWaiting s ws k u) (hk : k < 500)
    (hws : k < ws.length) (ins : List TickInput) :
    ∃ t, TickPath (afterPulse u ins) ws[k] t ∧ ReadyWaiting s ws (k + 1) t := by
  have hleft := h.left
  have hpos : 0 < waitLeft u.chg u.dbt0 := by omega
  refine ⟨_, .readyWait (s := afterPulse u ins) h.state hpos, h.state, ?_, fun _ => rfl, ?_, ?_, h.duty⟩
  · show (BitVec.ofNat 9 (waitLeft u.chg u.dbt0 - 1)).toNat = 500 - (k + 1)
    rw [waitLeft_pred_toNat (by omega)]
    omega
  · rw [feeds_take_succ ws k hws, feedBoth_fa0, feedBoth_fa0, ← h.fa0]
    rfl
  · rw [feeds_take_succ ws k hws, feedBoth_fa1, feedBoth_fa1, ← h.fa1]
    rfl

/-- The 500 feeding ticks of READY_BTN_WAIT (44_state_machine R183). -/
theorem readyWait_runs {s : State} {ws : List InputWord} {rest : List TickInput} (hst : s.state = 0) (hchg : s.chg = true)
    (hws : 500 ≤ ws.length) (hin : s.inputs = pulsesOf ws ++ rest) :
    ∀ k, k ≤ 500 → ∃ t, runs k s = .next t ∧ ReadyWaiting s ws k t ∧ t.inputs = pulsesOf (ws.drop k) ++ rest := by
  refine runs_words hws hin ⟨hst, ?_, fun h => absurd h (by decide), rfl, rfl, rfl⟩ fun k hk u ins hu => hu.tick hk _ ins
  rw [hchg, waitLeft_entry]

/-- The 501st tick: the timer is found at 0, and the block advances to READY (44_state_machine R183). -/
theorem readyWait_advances {s : State} {ws : List InputWord} {rest : List TickInput} (hst : s.state = 0) (hchg : s.chg = true)
    (hws : 501 ≤ ws.length) (hin : s.inputs = pulsesOf ws ++ rest) :
    ∃ t, runs 501 s = .next t ∧ t.state = 1 ∧ t.chg = true ∧ t.dbt0 = 0 ∧ t.inputs = pulsesOf (ws.drop 501) ++ rest ∧
      t.duty = s.duty ∧ t.fa0 = (feeds (ws.take 500) s).fa0 ∧ t.fa1 = (feeds (ws.take 500) s).fa1 := by
  obtain ⟨u, hrun, hu, huin⟩ := readyWait_runs hst hchg (by omega) hin 500 (Nat.le_refl _)
  rw [pulsesOf_drop ws 500 hws rest] at huin
  have hp := TickPath.readyWaitDone (s := afterPulse u (pulsesOf (ws.drop 501) ++ rest)) (w := ws[500]) hu.state hu.left
  exact ⟨_, runs_step hrun (hp.step_eq huin), rfl, rfl, BitVec.eq_of_toNat_eq (hu.dbt0 (by decide)), rfl, hu.duty,
    hu.fa0, hu.fa1⟩

/-- Settles O51: the feeding ticks, and the one that advances. -/
theorem readyWaitTiming : Obligations.ReadyWaitTiming := by
  intro s ws rest hst hchg hlen hin
  refine ⟨fun k hk hk' => ?_, ?_⟩
  · obtain ⟨t, hrun, ht, _⟩ := readyWait_runs hst hchg (by omega) hin k hk'
    exact ⟨t, hrun, ht.state, ht.chg hk, ht.dbt0 hk, ht.fa0, ht.fa1, ht.duty⟩
  · obtain ⟨t, hrun, hst', hchg', hdbt, htin, hduty, hfa0, hfa1⟩ := readyWait_advances hst hchg hlen.ge hin
    rw [List.drop_eq_nil_of_le hlen.le] at htin
    exact ⟨t, hrun, hst', hchg', hdbt, htin, hduty, hfa0, hfa1⟩

/-- `u` is the state after an arm in the state `a` and `k` ticks of THRUST_BTN_WAIT (44_state_machine R189). -/
structure ThrustWaiting (a : State) (k : Nat) (u : State) : Prop where
  state : u.state = if k = 500 then 3 else 2
  left : k < 500 → waitLeft u.chg u.dbt1 = 500 - k
  dbt1 : 1 ≤ k → u.dbt1.toNat = 500 - k
  dur : u.dur.toNat = (runDur (getFilter .time a)).toNat - k
  duty : u.duty = getFilter .throttle a
  thrust : u.thrust = getFilter .throttle a

/-- The arm (44_state_machine R186). -/
theorem arm_thrustWaiting {a : State} {w : InputWord} {rest : List TickInput} (hst : a.state = 1) (hbtn : w.btn = true)
    (h : TakesTick a w rest) : ∃ t, step a = .next t ∧ ThrustWaiting a 0 t ∧ t.inputs = rest :=
  ⟨_, (TickPath.arm (s := afterPulse a rest) hst hbtn).step_eq h,
    ⟨rfl, fun _ => rfl, fun h => absurd h (by decide), rfl, rfl, rfl⟩, rfl⟩

/-- A tick of the wait: the armed duration outlasts it, so that the timer alone ends it (44_state_machine R188, R202). -/
theorem ThrustWaiting.tick {a u : State} {k : Nat} (h : ThrustWaiting a k u) (hk : k < 500) (w : InputWord)
    (ins : List TickInput) : ∃ t, TickPath (afterPulse u ins) w t ∧ ThrustWaiting a (k + 1) t := by
  have hleft := h.left hk
  have hdur := h.dur
  have hbase := le_runDur_toNat (getFilter .time a)
  have hst : u.state = 2 := h.state.trans (if_neg hk.ne)
  have hlong : 1 < u.dur.toNat := by omega
  have hdur' : (satdec u.dur).toNat = (runDur (getFilter .time a)).toNat - (k + 1) := by
    rw [satdec_toNat]
    omega
  by_cases hend : k + 1 = 500
  · have hone : waitLeft u.chg u.dbt1 = 1 := by omega
    refine ⟨_, .elapsed (s := afterPulse u ins) hst hone hlong, (if_pos hend).symm, fun h => absurd hend h.ne, fun _ => ?_,
      hdur', h.duty, h.thrust⟩
    rw [hend]
    rfl
  · have hmore : 1 < waitLeft u.chg u.dbt1 := by omega
    have hpred : (BitVec.ofNat 9 (waitLeft u.chg u.dbt1 - 1)).toNat = 500 - (k + 1) := by
      rw [waitLeft_pred_toNat (by omega)]
      omega
    exact ⟨_, .thrustWait (s := afterPulse u ins) hst hmore hlong, hst.trans (if_neg hend).symm, fun _ => hpred,
      fun _ => hpred, hdur', h.duty, h.thrust⟩

/-- The arm and the 500 ticks of THRUST_BTN_WAIT (44_state_machine R189). -/
theorem thrustWait_runs {a : State} {w : InputWord} {ws : List InputWord} {rest : List TickInput} (hst : a.state = 1)
    (hbtn : w.btn = true) (hws : 500 ≤ ws.length) (hin : a.inputs = pulsesOf (w :: ws) ++ rest) :
    ∀ k, k ≤ 500 → ∃ t, runs (k + 1) a = .next t ∧ ThrustWaiting a k t ∧ t.inputs = pulsesOf (ws.drop k) ++ rest := by
  intro k hk
  obtain ⟨u, hstep, hu, huin⟩ := arm_thrustWaiting hst hbtn hin
  rw [runs_succ k a u hstep]
  exact runs_words hws huin hu (fun j hj v ins hv => hv.tick hj _ ins) k hk

/-- Settles O52: what holds after the arm and each tick of the wait. -/
theorem thrustWaitTiming : Obligations.ThrustWaitTiming := by
  intro s w ws rest hst hbtn hlen hin k hk hk'
  obtain ⟨t, hrun, ht, _⟩ := thrustWait_runs hst hbtn hlen.ge hin k hk'
  exact ⟨t, hrun, ht.dbt1 hk, ht.dur, ht.state⟩

end Sys2Proof.Machine
end

section
/-! SUPPORT. The timing laws over whole runs (44_state_machine R204; 42_ramp_down R155, R156; 70_reset_and_hazards R251, R255). -/

namespace Sys2Proof.Machine

/-- `u` is the state after `j` ticks of THRUST from a state with `d` ticks left and the duty `duty` (44_state_machine R192). -/
structure Running (d : Nat) (duty : Byte) (j : Nat) (u : State) : Prop where
  state : u.state = 3
  dur : u.dur.toNat = d - j
  duty : u.duty = duty

/-- A tick of a run that has more than one tick left, the button released. -/
theorem Running.tick {d j : Nat} {duty : Byte} {u : State} (h : Running d duty j u) (hj : j + 1 < d) {w : InputWord}
    (hbtn : w.btn = false) (ins : List TickInput) : ∃ t, TickPath (afterPulse u ins) w t ∧ Running d duty (j + 1) t := by
  have hdur := h.dur
  have hlong : 1 < u.dur.toNat := by omega
  refine ⟨_, .run (s := afterPulse u ins) h.state hbtn hlong, h.state, ?_, h.duty⟩
  show (satdec u.dur).toNat = d - (j + 1)
  rw [satdec_toNat]
  omega

/-- The ticks of THRUST up to the last but one of the run, the button released (44_state_machine R192). -/
theorem running_runs {d : Nat} {duty : Byte} {s : State} {ws : List InputWord} {rest : List TickInput}
    (h : Running d duty 0 s) (hws : d ≤ ws.length) (hbtn : ∀ w ∈ ws, w.btn = false) (hin : s.inputs = pulsesOf ws ++ rest) :
    ∀ j, j ≤ d - 1 → ∃ t, runs j s = .next t ∧ Running d duty j t ∧ t.inputs = pulsesOf (ws.drop j) ++ rest :=
  runs_words (by omega) hin h fun j hj u ins hu => hu.tick (by omega) (hbtn _ (List.getElem_mem _)) ins

/-- The last tick of a run is the hard cut-off (44_state_machine R192, 43_output_stage R170). -/
theorem Running.expires {d : Nat} {duty : Byte} {u : State} (h : Running d duty (d - 1) u) {w : InputWord}
    {rest : List TickInput} (hin : TakesTick u w rest) :
    ∃ t, step u = .next t ∧ t.duty = 0 ∧ t.dur = 0 ∧ t.state = 0 := by
  have hdur := h.dur
  exact ⟨_, step_retIdle (.inl ⟨h.state, .inr (by omega)⟩) hin, rfl, rfl, rfl⟩

/-- After the wait a run is in THRUST with the rest of its duration (44_state_machine R189). -/
theorem ThrustWaiting.running {a u : State} (h : ThrustWaiting a 500 u) :
    Running ((runDur (getFilter .time a)).toNat - 500) (getFilter .throttle a) 0 u :=
  ⟨h.state.trans (if_pos rfl), h.dur.trans (Nat.sub_zero _).symm, h.duty⟩

/-- Settles O53: the wait takes the first 500 ticks of the duration, THRUST the others, and the last of those is the cut-off. -/
theorem uninterruptedRunLength : Obligations.UninterruptedRunLength := by
  intro s w ws rest hst hbtn D hlen hreleased hin
  have hbase : 15000 ≤ D := le_runDur_toNat (getFilter .time s)
  have hwait := thrustWait_runs hst hbtn (by omega) hin
  obtain ⟨u, hrun, hu, huin⟩ := hwait 500 (Nat.le_refl _)
  have hlater : ∀ v ∈ ws.drop 500, v.btn = false := by
    intro v hv
    obtain ⟨i, hi⟩ := List.mem_iff_getElem?.1 hv
    rw [List.getElem?_drop] at hi
    exact hreleased (500 + i) v hi (Nat.le_add_right _ _)
  have hthrust := running_runs hu.running (by rw [List.length_drop, hlen]) hlater huin
  refine ⟨fun k hk => ?_, ?_⟩
  · rcases Nat.le_total k 500 with hk' | hk'
    · obtain ⟨t, hrun', ht, _⟩ := hwait k hk'
      exact ⟨t, hrun', ht.duty, ht.dur⟩
    · obtain ⟨t, hrun', ht, _⟩ := hthrust (k - 500) (by omega)
      refine ⟨t, ?_, ht.duty, ht.dur.trans (by omega)⟩
      rw [show k + 1 = 500 + 1 + (k - 500) by omega, runs_add _ _ _ _ hrun, hrun']
  · obtain ⟨v, hrun', hv, hvin⟩ := hthrust (D - 500 - 1) (Nat.le_refl _)
    have hlast : D - 500 - 1 < (ws.drop 500).length := by
      rw [List.length_drop]
      omega
    rw [pulsesOf_drop _ _ hlast] at hvin
    obtain ⟨t, hstep, ht⟩ := hv.expires hvin
    refine ⟨t, ?_, ht⟩
    rw [show D + 1 = 500 + 1 + (D - 500 - 1 + 1) by omega, runs_add _ _ _ _ hrun]
    exact runs_step hrun' hstep

/-- `u` is the state after `j` ramp steps from the level `l` (42_ramp_down R155). -/
structure Ramping (l j : Nat) (u : State) : Prop where
  state : u.state = 4
  level : u.level.toNat = l - 32 * j
  duty : 1 ≤ j → u.duty.toNat = (l - 32 * j) / 256

/-- A ramp step that subtracts (42_ramp_down R151). -/
theorem Ramping.tick {l j : Nat} {u : State} (h : Ramping l j u) (hj : 32 < l - 32 * j) {w : InputWord}
    (hbtn : w.btn = false) (ins : List TickInput) : ∃ t, TickPath (afterPulse u ins) w t ∧ Ramping l (j + 1) t := by
  have hmax := u.level.isLt
  have hlevel := h.level
  refine ⟨_, .ramp (s := afterPulse u ins) h.state hbtn (hlevel ▸ hj), h.state, ?_, fun _ => ?_⟩
  · show (BitVec.ofNat 16 (u.level.toNat - 32)).toNat = l - 32 * (j + 1)
    rw [BitVec.toNat_ofNat]
    omega
  · show (BitVec.ofNat 8 ((u.level.toNat - 32) / 256)).toNat = (l - 32 * (j + 1)) / 256
    rw [BitVec.toNat_ofNat]
    omega

/-- The number of subtractions of a ramp from the level `l` (42_ramp_down R155). -/
def rampLength (l : Nat) : Nat := if l ≤ 32 then 0 else (l + 31) / 32 - 1

/-- Before the last subtraction the level is above 32, after it at most 32. -/
theorem rampLength_spec (l : Nat) : l - rampLength l * 32 ≤ 32 ∧ ∀ j, j < rampLength l → 32 < l - j * 32 := by
  unfold rampLength
  split
  · exact ⟨by omega, fun j hj => absurd hj (Nat.not_lt_zero j)⟩
  · exact ⟨by omega, fun j hj => by omega⟩

/-- A ramp from an armed level takes 8 ticks for each unit of the thrust (42_ramp_down R156). -/
theorem rampLength_armed (θ : Nat) (hθ : 1 ≤ θ) : rampLength (256 * θ) + 1 = 8 * θ := by
  rw [rampLength, if_neg (by omega)]
  omega

/-- Settles O54: the subtracting steps, of which there are `rampLength`, and the one that finds the level depleted. -/
theorem rampLengthAndDuty : Obligations.RampLengthAndDuty := by
  intro s ws rest hst hbtn L k hlen hin
  obtain ⟨hdone, hmore⟩ : L - k * 32 ≤ 32 ∧ ∀ j, j < k → 32 < L - j * 32 := rampLength_spec L
  have hstart : Ramping L 0 s := ⟨hst, rfl, fun h => absurd h (by decide)⟩
  have hruns := runs_words (n := k) (by omega) hin hstart fun j hj u ins hu =>
    hu.tick (Nat.mul_comm j 32 ▸ hmore j hj) (hbtn _ (List.getElem_mem _)) ins
  refine ⟨⟨hdone, hmore⟩, fun j hj hj' => ?_, ?_, fun θ hθ hL => ?_⟩
  · obtain ⟨t, hrun, ht, _⟩ := hruns j hj'
    have hduty := ht.duty hj
    exact ⟨t, hrun, ht.state, ht.level, hduty, fun θ hL => by omega⟩
  · obtain ⟨u, hrun, hu, huin⟩ := hruns k (Nat.le_refl k)
    have hlevel := hu.level
    rw [pulsesOf_drop ws k (by omega) rest] at huin
    exact ⟨_, runs_step hrun (step_retIdle (.inr ⟨hu.state, .inr (by omega)⟩) huin), rfl, rfl, rfl⟩
  · have harmed := rampLength_armed θ hθ
    rw [← hL] at harmed
    exact harmed

/-- Settles O55: the wait and the advance, the arm and the wait of the run, and the stop in the first tick of THRUST. -/
theorem heldButtonPulses : Obligations.HeldButtonPulses := by
  intro s ws rest hst hchg hoff hlen hheld hin armed
  obtain ⟨u, hrun, hust, _, _, huin, huduty, hufa0, _⟩ := readyWait_advances hst hchg (by omega) hin
  have harmed : getFilter .throttle u = armed := congrArg filterOut hufa0
  rw [List.drop_eq_getElem_cons (show 501 < ws.length by omega)] at huin
  have hwait := thrustWait_runs hust (hheld _ (List.getElem_mem _)) (by rw [List.length_drop, hlen]; decide) huin
  refine ⟨fun k hk => ?_, fun k hk hk' => ?_, ?_⟩
  · rcases Nat.lt_or_eq_of_le hk with hk | rfl
    · obtain ⟨t, hrun', ht, _⟩ := readyWait_runs hst hchg (by omega) hin k (by omega)
      exact ⟨t, hrun', ht.duty.trans hoff⟩
    · exact ⟨u, hrun, huduty.trans hoff⟩
  · obtain ⟨t, hrun', ht, _⟩ := hwait (k - 502) (by omega)
    refine ⟨t, ?_, ht.duty.trans harmed, ht.thrust.trans harmed⟩
    rw [show k = 501 + (k - 502 + 1) by omega, runs_add _ _ _ _ hrun, hrun']
  · obtain ⟨v, hrun', hv, hvin⟩ := hwait 500 (Nat.le_refl _)
    have hrun'' : runs 1002 s = .next v := (runs_add 501 501 s u hrun).trans hrun'
    rw [List.drop_drop, pulsesOf_drop ws 1002 (by omega) rest, List.drop_eq_nil_of_le hlen.le] at hvin
    have hstop := step_retIdle (.inl ⟨hv.state, .inl (hheld _ (List.getElem_mem _))⟩) hvin
    exact ⟨_, runs_step hrun'' hstop, rfl, rfl, rfl, rfl⟩

/-- `u` is a state within `k` ticks of reset: the duty is 0, and up to 500 the timer of READY_BTN_WAIT has not lost more than `k`
(70_reset_and_hazards R251). -/
structure NotYetArmed (k : Nat) (u : State) : Prop where
  duty : u.duty = 0
  waiting : k ≤ 500 → u.state = 0 ∧ 500 - k ≤ waitLeft u.chg u.dbt0
  pulses : ∃ ws, u.inputs = pulsesOf ws

/-- A step within the first 501: without a pulse nothing changes, and a tick feeds or, where the timer has run out, advances. -/
theorem NotYetArmed.next {k : Nat} {u : State} (h : NotYetArmed k u) (hk : k < 501) :
    ∃ t, step u = .next t ∧ NotYetArmed (k + 1) t := by
  obtain ⟨hduty, hwaiting, ws, hin⟩ := h
  obtain ⟨hst, hleft⟩ := hwaiting (by omega)
  cases ws with
  | nil => exact ⟨u, step_no_pulse u hin, hduty, fun _ => ⟨hst, by omega⟩, [], hin⟩
  | cons w ws =>
    rcases Nat.eq_zero_or_pos (waitLeft u.chg u.dbt0) with htimer | htimer
    · exact ⟨_, (TickPath.readyWaitDone (s := afterPulse u (pulsesOf ws)) hst htimer).step_eq hin, hduty,
        fun h => by omega, ws, rfl⟩
    · refine ⟨_, (TickPath.readyWait (s := afterPulse u (pulsesOf ws)) hst htimer).step_eq hin, hduty,
        fun _ => ⟨hst, ?_⟩, ws, rfl⟩
      have hmax : waitLeft u.chg u.dbt0 ≤ 511 := by
        cases u.chg
        · exact Nat.le_of_lt_succ u.dbt0.isLt
        · exact (by decide : 500 ≤ 511)
      show 500 - (k + 1) ≤ (BitVec.ofNat 9 (waitLeft u.chg u.dbt0 - 1)).toNat
      rw [BitVec.toNat_ofNat]
      omega

/-- Settles O56: the invariant holds at reset, and the first 501 steps leave the block not yet armed. -/
theorem noDutyBeforeTick502 : Obligations.NoDutyBeforeTick502 := by
  have h := safeAtReset
  refine ⟨⟨h.sums, h.duty, h.idle, h.timers, h.thrust, h.notDown, h.run, h.legal⟩, fun ws n hn => ?_⟩
  have hreset : NotYetArmed 0 { State.reset with inputs := pulsesOf ws } :=
    ⟨rfl, fun _ => ⟨rfl, Nat.le_refl 500⟩, ws, rfl⟩
  obtain ⟨t, hrun, ht⟩ := runs_induction NotYetArmed _ 501 hreset (fun _ _ hk hu => hu.next hk) n hn
  exact ⟨t, hrun, ht.duty, fun hn' => (ht.waiting hn').1⟩

end Sys2Proof.Machine
end
